-- ==== Sys2Proof/Word.lean ====
section
/-! DEFINITION. The block's data: channels, pixels, transmission words, wire levels (spec/00_scope.md R16, R22). -/

namespace Sys2Proof

/-- A byte of a command unit, or one 8-bit unsigned channel of a pixel (R16). -/
abbrev Byte := BitVec 8

/-- A transmission word, the 24-bit packet sent for one pixel (R16, R110). -/
abbrev WireWord := BitVec 24

/-- A pixel: three 8-bit unsigned channels in logical order red, green, blue (R16, R32, R72). -/
structure Pixel where
  r : Byte
  g : Byte
  b : Byte
  deriving DecidableEq, Repr

/-- The logic level of the data wire (R48). -/
inductive Level where
  | low
  | high
  deriving DecidableEq, Repr

end Sys2Proof
end

