-- ==== Sys2Proof/Config.lean ====
section
/-! DEFINITION. What an implementation fixes (the configuration record of spec/10_state.md R35) and the free values:
the moves that nothing in the state has chosen yet. -/

namespace Sys2Proof

/-- `UNIT_MODE` (R12): what one command unit is. -/
inductive UnitMode where
  | line
  | fixed2
  deriving DecidableEq, Repr

/-- `CHASE_MODE` (R12): which chase a Directional command plays, `PAIR` or `SECTION`. -/
inductive ChaseMode where
  | pair
  | sectioned
  deriving DecidableEq, Repr

/-- A pattern invocation, as `BOOT_SEQUENCE` lists them (R343); `c` is a colour index. -/
inductive Pattern where
  | fillBounce (c : Nat)
  | chaseA (c : Nat)
  | chaseB (c : Nat)
  | sectionFwd (c : Nat)
  | sectionRev (c : Nat)
  | rainbow
  deriving DecidableEq, Repr

/-- The configuration record (R35), fixed before reset and written by no operation (R36). Times are exact rationals in
seconds (R14, R15, D46). -/
structure Config where
  /-- `N`, the strip length (R8). -/
  n : Nat
  /-- `B`, the branch offset (R9). -/
  b : Int
  /-- `SECTIONS`, the section lengths (R10). -/
  sections : List Nat
  /-- `PALETTE`, ten pixels indexed 0 to 9 (R11, R34). -/
  palette : List Pixel
  /-- `BRIGHTNESS` as configured; SCALE clamps it to [0, 1] (R13). -/
  brightness : Rat
  unitMode : UnitMode
  chaseMode : ChaseMode
  clearRender : Bool
  bootSequence : List Pattern
  /-- `T_BIT`, the duration of one bit symbol (R14). -/
  tBit : Rat
  /-- `T0H`, the high phase of a "0" symbol (R14). -/
  t0h : Rat
  /-- `T1H`, the high phase of a "1" symbol (R14). -/
  t1h : Rat
  /-- `T_LATCH`, the least idle duration after a frame (R14). -/
  tLatch : Rat
  /-- `JITTER`, the relative tolerance of every phase (R14). -/
  jitter : Rat
  tChase : Rat
  tSection : Rat
  tRainbow : Rat
  deriving DecidableEq, Repr

/-- One move of the run. The spec leaves open which agent steps next (R305), which byte the transport offers and when
(R317, R318), and how long a phase, a gap or a delay lasts within its bounds (R184, R186, R211): a list of moves says it.
DESIGN CHOICE, safe: log entry 2. -/
inductive Move where
  /-- `dt` seconds of real time pass. -/
  | tick (dt : Rat)
  /-- The transport offers the byte and RX takes it (R318). -/
  | rx (b : Byte)
  /-- SEQ takes its step. -/
  | seq
  /-- TX takes its step. -/
  | tx
  /-- The block is reset from outside (R340, R341; log entry 13). -/
  | reset
  deriving DecidableEq, Repr, Inhabited

/-- FREE VALUE (log entry 2): the `k`-th move that the state's agenda does not give. It has no body, so nothing can be
proved of it: a claim about a run that draws it holds for every order of the agents, every byte sequence and every
timing. -/
opaque Config.freeMove : Nat → Move

end Sys2Proof
end

