-- ==== Sys2Proof/Syntax.lean ====
section
/-! DEFINITION. The block's instructions, one constructor per row of spec/opcode_table.json: three commands (R106), seven
micro-operations (R113) and six patterns (R115). -/

namespace Sys2Proof

/-- An instruction. Positions are mathematical integers (R116), colour and direction operands are digits' values (R105),
times are seconds (R211). -/
inductive Instr where
  /-- CMD_FILL, `Fill(c)` (R270). -/
  | cmdFill (c : Nat)
  /-- CMD_DIR_A, `Directional(0, c)` (R272). -/
  | cmdDirA (c : Nat)
  /-- CMD_DIR_B, `Directional(d, c)` with `d` from 1 to 9 (R273). -/
  | cmdDirB (d c : Nat)
  /-- `SET p, px` (R140). -/
  | set (p : Int) (px : Pixel)
  /-- `FILL px` (R141). -/
  | fill (px : Pixel)
  /-- `GET k` (R142). -/
  | get (k : Int)
  /-- `SCALE` (R162). -/
  | scale
  /-- `TRANSMIT fr` (R180). -/
  | transmit (fr : List WireWord)
  /-- `RENDER` (R210). -/
  | render
  /-- `DELAY t` (R211). -/
  | delay (t : Rat)
  /-- `FILL_BOUNCE(c)` (R214). -/
  | fillBounce (c : Nat)
  /-- `CHASE_A(c)` (R216). -/
  | chaseA (c : Nat)
  /-- `CHASE_B(c)` (R217). -/
  | chaseB (c : Nat)
  /-- `SECTION_FWD(c)` (R220). -/
  | sectionFwd (c : Nat)
  /-- `SECTION_REV(c)` (R221). -/
  | sectionRev (c : Nat)
  /-- `RAINBOW` (R224). -/
  | rainbow
  deriving DecidableEq, Repr

end Sys2Proof
end

