-- ==== Sys2Proof/WellFormed.lean ====
section
/-! DEFINITION. Which operands an instruction may carry in a given configuration. -/

namespace Sys2Proof

/-- The operands are those the instruction's rule admits: a colour index in [0, 9] (R105), a direction in [1, 9] for
CMD_DIR_B (R273), CMD_FILL in `LINE` mode only (R270), a GET position in range (R142), a frame of `N` words (R180), a
non-negative time (R211). A SET position is any integer (R140). -/
def Instr.wf (cfg : Config) : Instr → Bool
  | .cmdFill c => decide (c ≤ 9) && decide (cfg.unitMode = .line)
  | .cmdDirA c => decide (c ≤ 9)
  | .cmdDirB d c => decide (1 ≤ d) && decide (d ≤ 9) && decide (c ≤ 9)
  | .set _ _ => true
  | .fill _ => true
  | .get k => decide (0 ≤ k) && decide (k < cfg.n)
  | .scale => true
  | .transmit fr => decide (fr.length = cfg.n)
  | .render => true
  | .delay t => decide (0 ≤ t)
  | .fillBounce c => decide (c ≤ 9)
  | .chaseA c => decide (c ≤ 9)
  | .chaseB c => decide (c ≤ 9)
  | .sectionFwd c => decide (c ≤ 9)
  | .sectionRev c => decide (c ≤ 9)
  | .rainbow => true

/-- The pattern invocation's colour index is in [0, 9] (R343). -/
def Pattern.wf : Pattern → Bool
  | .fillBounce c => decide (c ≤ 9)
  | .chaseA c => decide (c ≤ 9)
  | .chaseB c => decide (c ≤ 9)
  | .sectionFwd c => decide (c ≤ 9)
  | .sectionRev c => decide (c ≤ 9)
  | .rainbow => true

end Sys2Proof
end

