-- ==== Sys2Proof/Decode.lean ====
section
/-! DEFINITION. Command units: ParseLine's reading of their bytes, Validate's check, the instruction they stand for, the
opcode map of R106, and the encoder (spec/30_encoding.md, spec/44_command.md R265 to R268). -/

namespace Sys2Proof

/-- A command unit: its payload bytes in arrival order, or `Overflow` (R39, R42, R261). -/
inductive CmdUnit where
  | overflow
  | bytes (bs : List Byte)
  deriving DecidableEq, Repr

/-- A decoded command (R39). -/
inductive Cmd where
  | fill (c : Nat)
  | directional (d c : Nat)
  | invalid
  deriving DecidableEq, Repr

/-- Why Validate rejects a unit (R267, R268). -/
inductive Reject where
  | malformedCommand (u : CmdUnit)
  | outOfRangeIndex (c : Nat)
  deriving DecidableEq, Repr

/-- A payload byte is a digit when it is ASCII '0' to '9' (R105). -/
def isDigit (b : Byte) : Bool := decide (0x30 ≤ b.toNat) && decide (b.toNat ≤ 0x39)

/-- A digit's value (R105). -/
def digit (b : Byte) : Nat := b.toNat - 0x30

/-- The two-character form (R102, R265, R266). -/
def parsePair (c0 c1 : Byte) : Cmd :=
  if isDigit c0 && isDigit c1 then .directional (digit c0) (digit c1) else .invalid

/-- ParseLine in `LINE` mode (R265). -/
def parseLine : CmdUnit → Cmd
  | .bytes [c0] => if isDigit c0 then .fill (digit c0) else .invalid
  | .bytes [c0, c1] => parsePair c0 c1
  | .bytes _ => .invalid
  | .overflow => .invalid

/-- ParseLine in `FIXED2` mode (R266), where a unit always has two bytes. -/
def parseFixed2 : CmdUnit → Cmd
  | .bytes [c0, c1] => parsePair c0 c1
  | .bytes _ => .invalid
  | .overflow => .invalid

/-- ParseLine (R265, R266). -/
def parse : UnitMode → CmdUnit → Cmd
  | .line, u => parseLine u
  | .fixed2, u => parseFixed2 u

/-- Validate: the reason to reject the command of unit `u`, shape before range (R267, R268, R305); `none` accepts it. -/
def validate (u : CmdUnit) : Cmd → Option Reject
  | .invalid => some (.malformedCommand u)
  | .fill c => if c ≤ 9 then none else some (.outOfRangeIndex c)
  | .directional _ c => if c ≤ 9 then none else some (.outOfRangeIndex c)

/-- The instruction a command stands for: direction 0 is CMD_DIR_A, every other CMD_DIR_B (R106, R271). -/
def Cmd.instr? : Cmd → Option Instr
  | .fill c => some (.cmdFill c)
  | .directional d c => some (if d = 0 then .cmdDirA c else .cmdDirB d c)
  | .invalid => none

/-- What command unit `u` decodes to, or why it is rejected (R106, R107, R265 to R269). -/
def decode (mode : UnitMode) (u : CmdUnit) : Except Reject Instr :=
  match validate u (parse mode u), (parse mode u).instr? with
  | some r, _ => .error r
  | none, some i => .ok i
  | none, none => .error (.malformedCommand u)

/-- The low four bits of an opcode-map value: the colour field `c` (R101, R102). -/
def colourField {w : Nat} (u : BitVec w) : Nat := (u.extractLsb' 0 4).toNat

/-- The direction field `d = u[11:8]` (R102). -/
def directionField (u : BitVec 16) : Nat := (u.extractLsb' 8 4).toNat

/-- The opcode map's row of format U1 (R106). -/
def opcodeMapU1 (u : BitVec 8) : Option Instr :=
  if u &&& 0xF0#8 = 0x30#8 ∧ colourField u ≤ 9 then some (.cmdFill (colourField u)) else none

/-- The opcode map's rows of format U2, DIR_A tested before DIR_B (R106). -/
def opcodeMapU2 (u : BitVec 16) : Option Instr :=
  if u &&& 0xFFF0#16 = 0x3030#16 ∧ colourField u ≤ 9 then some (.cmdDirA (colourField u))
  else if u &&& 0xF0F0#16 = 0x3030#16 ∧ 1 ≤ directionField u ∧ directionField u ≤ 9 ∧ colourField u ≤ 9 then
    some (.cmdDirB (directionField u) (colourField u))
  else none

/-- The ASCII byte of a digit's value (R105). -/
def digitByte (v : Nat) : Byte := BitVec.ofNat 8 (0x30 + v)

/-- The payload bytes of a command, first byte first (R101, R102); micro-operations and patterns have no encoding
(R100). -/
def encode : Instr → Option (List Byte)
  | .cmdFill c => some [digitByte c]
  | .cmdDirA c => some [digitByte 0, digitByte c]
  | .cmdDirB d c => some [digitByte d, digitByte c]
  | .set _ _ => none
  | .fill _ => none
  | .get _ => none
  | .scale => none
  | .transmit _ => none
  | .render => none
  | .delay _ => none
  | .fillBounce _ => none
  | .chaseA _ => none
  | .chaseB _ => none
  | .sectionFwd _ => none
  | .sectionRev _ => none
  | .rainbow => none

/-- The line terminator LF (R103). -/
def lineFeed : Byte := 0x0A#8

/-- The optional carriage return CR before it (R103). -/
def carriageReturn : Byte := 0x0D#8

/-- The bytes a sender writes for a payload: in `LINE` mode followed by LF, in `FIXED2` mode by nothing (R114). -/
def frameBytes : UnitMode → List Byte → List Byte
  | .line, bs => bs ++ [lineFeed]
  | .fixed2, bs => bs

/-- The command unit whose bits are `w` in the opcode table's numbering: an 8-bit value is the one byte of format U1
(R101); of a 16-bit value bits 15..8 are the first byte and bits 7..0 the second (R102). Log entry 10. -/
def tableUnit (nbits w : Nat) : Option CmdUnit :=
  if nbits = 8 then some (.bytes [BitVec.ofNat 8 w])
  else if nbits = 16 then some (.bytes [BitVec.ofNat 8 (w / 256), BitVec.ofNat 8 w])
  else none

/-- The instruction the decoder reads from the unit that `tableUnit` lays out, in `LINE` mode (the one mode that has both
formats). -/
def decodeTableWord (nbits w : Nat) : Option Instr :=
  match tableUnit nbits w with
  | none => none
  | some u =>
    match decode .line u with
    | .ok i => some i
    | .error _ => none

end Sys2Proof
end

