-- ==== Sys2Proof/Machine/Operands.lean ====
section
/-! DEFINITION. Operand forms: the pixels a pattern writes, positions and their range (spec/30_encoding.md R116). -/

namespace Sys2Proof

/-- `BLACK`, the pixel (0, 0, 0) (R41). -/
def Pixel.black : Pixel := ⟨0, 0, 0⟩

/-- `PALETTE[c]` (R34); Black where the palette has no entry `c`, which no meaning reads (each asks `paletteHas`). -/
def Config.colour (cfg : Config) (c : Nat) : Pixel := cfg.palette.getD c Pixel.black

/-- `c` indexes the palette (R75). -/
def Config.paletteHas (cfg : Config) (c : Nat) : Bool := decide (c < cfg.palette.length)

/-- The position is in [0, N-1] (R75, R140). -/
def Config.inRange (cfg : Config) (p : Int) : Bool := decide (0 ≤ p) && decide (p ≤ (cfg.n : Int) - 1)

/-- `mirror(p) = N - 1 - p` (R21). -/
def Config.mirror (cfg : Config) (p : Int) : Int := (cfg.n : Int) - 1 - p

/-- `WHEEL(k)`, the hue wheel (R222). -/
def wheel (k : Nat) : Pixel :=
  if k < 85 then ⟨BitVec.ofNat 8 (255 - 3 * k), BitVec.ofNat 8 (3 * k), 0⟩
  else if k < 170 then ⟨0, BitVec.ofNat 8 (255 - 3 * (k - 85)), BitVec.ofNat 8 (3 * (k - 85))⟩
  else ⟨BitVec.ofNat 8 (3 * (k - 170)), 0, BitVec.ofNat 8 (255 - 3 * (k - 170))⟩

/-- `idx(i, j) = (floor(255 * i / N) + j) mod 255`, LED `i` at step `j` (R223). -/
def Config.rainbowIndex (cfg : Config) (i j : Nat) : Nat := (255 * i / cfg.n + j) % 255

/-- `S_k`, where section `k` starts (R219). -/
def Config.sectionStart (cfg : Config) (k : Nat) : Nat := (cfg.sections.take k).sum

/-- `l_k`, the length of section `k` (R219). -/
def Config.sectionLength (cfg : Config) (k : Nat) : Nat := cfg.sections.getD k 0

/-- `K = N - B`, the number of steps of the mirrored patterns (R214, R216, R217). -/
def Config.pairSteps (cfg : Config) : Nat := ((cfg.n : Int) - cfg.b).toNat

end Sys2Proof
end

