-- ==== Sys2Proof/Machine/Configuration.lean ====
section
/-! DEFINITION. When a configuration is valid (spec/00_scope.md R17), and the configuration State.reset holds (log entry 1). -/

namespace Sys2Proof

/-- `a < b` on exact rationals, by cross multiplication (Laws/Config.lean proves it is `<`). -/
def ratLt (a b : Rat) : Bool := decide (a.num * (b.den : Int) < b.num * (a.den : Int))

/-- `a ≤ b` on exact rationals, by cross multiplication (Laws/Config.lean proves it is `≤`). -/
def ratLe (a b : Rat) : Bool := decide (a.num * (b.den : Int) ≤ b.num * (a.den : Int))

/-- `a < b / 2`. -/
def ratLtHalf (a b : Rat) : Bool := decide (a.num * ((b.den : Int) * 2) < b.num * (a.den : Int))

/-- `b / 2 < a`. -/
def ratHalfLt (b a : Rat) : Bool := decide (b.num * (a.den : Int) < a.num * ((b.den : Int) * 2))

/-- `N >= 1`, `0 <= B <= N`, the section lengths sum to at most `N`, the palette has ten entries, the boot sequence's
colour indexes are in [0, 9] (R8 to R11, R343). Any `BRIGHTNESS` is legal: SCALE clamps it (R13). -/
def Config.shapeValid (c : Config) : Bool :=
  decide (1 ≤ c.n) && decide (0 ≤ c.b) && decide (c.b ≤ (c.n : Int)) && decide (c.sections.sum ≤ c.n) &&
    decide (c.palette.length = 10) && c.bootSequence.all Pattern.wf

/-- `0 < T0H < T_BIT/2 < T1H < T_BIT`, `T_LATCH > 0`, `0 <= JITTER < 0.10` (R14). -/
def Config.wireValid (c : Config) : Bool :=
  ratLt 0 c.t0h && ratLtHalf c.t0h c.tBit && ratHalfLt c.tBit c.t1h && ratLt c.t1h c.tBit && ratLt 0 c.tLatch &&
    ratLe 0 c.jitter && ratLt c.jitter (mkRat 1 10)

/-- `0.010 <= T_CHASE < 0.100`, `T_SECTION > 0`, `T_RAINBOW >= 0` (R15). -/
def Config.delayValid (c : Config) : Bool :=
  ratLe (mkRat 1 100) c.tChase && ratLt c.tChase (mkRat 1 10) && ratLt 0 c.tSection && ratLe 0 c.tRainbow

/-- The configuration is valid: rules R8 to R15 all hold (R17). -/
def Config.valid (c : Config) : Bool := c.shapeValid && c.wireValid && c.delayValid

/-- `PALETTE_CYCLE = [FILL_BOUNCE(0), ..., FILL_BOUNCE(9)]`, the default boot sequence (R343). -/
def paletteCycle : List Pattern := (List.range 10).map Pattern.fillBounce

/-- `DIRECTIONAL_SWEEP = [CHASE_A(0), CHASE_B(0)]` (R343). -/
def directionalSweep : List Pattern := [.chaseA 0, .chaseB 0]

/-- The test palette `TP` of spec/95_test_vectors.md (the spec gives no palette values). DESIGN CHOICE, unsafe: log
entry 1. -/
def testPalette : List Pixel :=
  [⟨255, 255, 255⟩, ⟨0, 255, 0⟩, ⟨255, 0, 0⟩, ⟨0, 0, 255⟩, ⟨255, 255, 0⟩,
   ⟨0, 255, 255⟩, ⟨255, 0, 255⟩, ⟨255, 128, 0⟩, ⟨128, 0, 255⟩, ⟨16, 32, 64⟩]

/-- The configuration `State.reset` holds: the spec's example `N`, `B`, sections and palette, the defaults its decisions
D21, D24, D25 and D35 name, and times the spec does not give (the bit time, latch gap and tolerance of vector V-T6, a quarter and
three quarters of the bit time for the high phases, 20 ms delays). DESIGN CHOICE, unsafe: log entry 1. -/
def defaultConfig : Config where
  n := 12
  b := 5
  sections := [3, 4, 5]
  palette := testPalette
  brightness := mkRat 1 1
  unitMode := .line
  chaseMode := .pair
  clearRender := false
  bootSequence := paletteCycle
  tBit := mkRat 1 800000
  t0h := mkRat 1 3200000
  t1h := mkRat 3 3200000
  tLatch := mkRat 3 10000
  jitter := mkRat 1 20
  tChase := mkRat 1 50
  tSection := mkRat 1 50
  tRainbow := mkRat 1 50

end Sys2Proof
end

