-- ==== Sys2Proof/Machine/Patterns.lean ====
section
/-! DEFINITION. The micro-operation list each pattern expands to (spec/43_animation.md R214 to R224) and the boot program
(spec/70_reset_and_hazards.md R342). -/

namespace Sys2Proof

/-- `if CLEAR_RENDER then RENDER`, the end of a chase step (R218). -/
def Config.clearOps (cfg : Config) : List Instr := if cfg.clearRender then [.render] else []

/-- Step `i` of the fill-bounce in colour `px` (R214): left position first (D38). -/
def Config.bounceStep (cfg : Config) (px : Pixel) (i : Nat) : List Instr :=
  [.set (cfg.b - 1 - i) px, .set (cfg.b + i) px, .render,
   .set (cfg.b - 1 - i) Pixel.black, .set (cfg.b + i) Pixel.black, .render]

/-- `FILL_BOUNCE` (R214). -/
def Config.fillBounceOps (cfg : Config) (px : Pixel) : List Instr :=
  (List.range cfg.pairSteps).flatMap (cfg.bounceStep px)

/-- Step `i` of the forward pair chase (R216). -/
def Config.chaseAStep (cfg : Config) (px : Pixel) (i : Nat) : List Instr :=
  [.set (cfg.b - 1 - i) px, .set (cfg.b + i) px, .render, .delay cfg.tChase,
   .set (cfg.b - 1 - i) Pixel.black, .set (cfg.b + i) Pixel.black] ++ cfg.clearOps

/-- `CHASE_A` (R216). -/
def Config.chaseAOps (cfg : Config) (px : Pixel) : List Instr :=
  (List.range cfg.pairSteps).flatMap (cfg.chaseAStep px)

/-- Step `i` of the reverse pair chase: every position of R216 mirrored (R217). -/
def Config.chaseBStep (cfg : Config) (px : Pixel) (i : Nat) : List Instr :=
  [.set (cfg.n - cfg.b + i) px, .set (cfg.n - 1 - cfg.b - i) px, .render, .delay cfg.tChase,
   .set (cfg.n - cfg.b + i) Pixel.black, .set (cfg.n - 1 - cfg.b - i) Pixel.black] ++ cfg.clearOps

/-- `CHASE_B` (R217). -/
def Config.chaseBOps (cfg : Config) (px : Pixel) : List Instr :=
  (List.range cfg.pairSteps).flatMap (cfg.chaseBStep px)

/-- A SET of every position of section `k`, in rising order (R219, R220). -/
def Config.sectionSets (cfg : Config) (px : Pixel) (k : Nat) : List Instr :=
  (List.range (cfg.sectionLength k)).map fun q => .set ((cfg.sectionStart k + q : Nat) : Int) px

/-- The step that lights section `k` (R220). -/
def Config.sectionStep (cfg : Config) (px : Pixel) (k : Nat) : List Instr :=
  cfg.sectionSets px k ++ [.render, .delay cfg.tSection] ++ cfg.sectionSets Pixel.black k ++ cfg.clearOps

/-- `SECTION_FWD` (R220). -/
def Config.sectionFwdOps (cfg : Config) (px : Pixel) : List Instr :=
  (List.range cfg.sections.length).flatMap (cfg.sectionStep px)

/-- `SECTION_REV`: the same sections in reverse list order (R221). -/
def Config.sectionRevOps (cfg : Config) (px : Pixel) : List Instr :=
  (List.range cfg.sections.length).reverse.flatMap (cfg.sectionStep px)

/-- Step `j` of the rainbow cycle (R224). -/
def Config.rainbowStep (cfg : Config) (j : Nat) : List Instr :=
  ((List.range cfg.n).map fun i => .set (i : Int) (wheel (cfg.rainbowIndex i j))) ++ [.render, .delay cfg.tRainbow]

/-- `RAINBOW` (R224). -/
def Config.rainbowOps (cfg : Config) : List Instr := (List.range 255).flatMap cfg.rainbowStep

/-- The micro-operation list of a pattern invocation (R20, R115). -/
def Config.expand (cfg : Config) : Pattern → List Instr
  | .fillBounce c => cfg.fillBounceOps (cfg.colour c)
  | .chaseA c => cfg.chaseAOps (cfg.colour c)
  | .chaseB c => cfg.chaseBOps (cfg.colour c)
  | .sectionFwd c => cfg.sectionFwdOps (cfg.colour c)
  | .sectionRev c => cfg.sectionRevOps (cfg.colour c)
  | .rainbow => cfg.rainbowOps

/-- The boot program: the expansions of `BOOT_SEQUENCE` one after another (R342). -/
def Config.bootProgram (cfg : Config) : List Instr := cfg.bootSequence.flatMap cfg.expand

/-- The colour index a pattern reads the palette at. -/
def Pattern.colour? : Pattern → Option Nat
  | .fillBounce c => some c
  | .chaseA c => some c
  | .chaseB c => some c
  | .sectionFwd c => some c
  | .sectionRev c => some c
  | .rainbow => none

end Sys2Proof
end

