-- ==== Sys2Proof/Machine/State.lean ====
section
/-! DEFINITION. The block's state (spec/10_state.md), the reasons a step stops, and the state after reset
(spec/70_reset_and_hazards.md R340). -/

namespace Sys2Proof.Machine

/-- The framebuffer index space (R70): the pixels of index 0, 1, ... in order. There is no byte-addressed memory; log
entry 9. -/
abbrev Memory := List Pixel

/-- The canonical form of a framebuffer of `n` pixels: it lists exactly `n` (R32). -/
def Memory.wf (n : Nat) (m : Memory) : Bool := decide (m.length = n)

/-- `seq_state` (R37). -/
inductive SeqState where
  | boot
  | await
  | parse
  | validate
  | dispatch
  deriving DecidableEq, Repr

/-- `seq_hold`, why SEQ cannot take its next step (R40). -/
inductive SeqHold where
  | none
  | txBusy
  | delay (t0 t : Rat)
  deriving DecidableEq, Repr

/-- `tx_state` (R44). -/
inductive TxState where
  | idle
  | shift
  | latch
  deriving DecidableEq, Repr

/-- `tx_phase` (R46). -/
inductive TxPhase where
  | high
  | low
  deriving DecidableEq, Repr

/-- What an error event records (R301 to R303). -/
inductive ErrInfo where
  | unit (u : CmdUnit)
  | colour (c : Nat)
  | position (p : Int)
  deriving DecidableEq, Repr

/-- The three non-fatal errors (R300). -/
inductive Err where
  | malformedCommand (u : CmdUnit)
  | outOfRangeIndex (c : Nat)
  | boundaryOverrun (p : Int)
  deriving DecidableEq, Repr

/-- An event of the trace (R52). -/
inductive Event where
  | frame (ws : List WireWord)
  | err (code : Nat) (info : ErrInfo)
  | dropped (u : CmdUnit)
  deriving DecidableEq, Repr

/-- What the last GET or SCALE returned. The rules give these operations a result and no state to hold it (R142, R162,
R77): the field is the model's own. DESIGN CHOICE, safe: log entry 7. -/
inductive OpResult where
  | none
  | pixel (px : Pixel)
  | frame (ws : List WireWord)
  deriving DecidableEq, Repr

/-- RX's state (R42, R43). -/
structure Rx where
  /-- `rx_buf`. -/
  buf : List Byte
  /-- `rx_ovf`. -/
  ovf : Bool
  /-- `rx_hold`, read only while `rx_have`. -/
  hold : Byte
  /-- `rx_have`. -/
  have_ : Bool
  deriving DecidableEq, Repr

/-- SEQ's state (R37 to R40). -/
structure Seq where
  /-- `seq_state`. -/
  state : SeqState
  /-- `prog`. -/
  prog : List Instr
  /-- `pc`. -/
  pc : Nat
  /-- `seq_hold`. -/
  hold : SeqHold
  /-- `cmd_unit`. -/
  cmdUnit : CmdUnit
  /-- `cmd`. -/
  cmd : Cmd
  /-- The model's own: DISPATCH was entered and has not loaded `prog` yet (R269, R270, R274). DEDUCED, safe: log entry
  4. -/
  loadPending : Bool
  /-- The model's own: what the last GET or SCALE returned (log entry 7). -/
  result : OpResult
  deriving DecidableEq, Repr

/-- TX's state (R44 to R48). -/
structure Tx where
  /-- `tx_state`. -/
  state : TxState
  /-- `tx_frame`. -/
  frame : List WireWord
  /-- `tx_pix`. -/
  pix : Nat
  /-- `tx_bit`. -/
  bit : Nat
  /-- `tx_phase`. -/
  phase : TxPhase
  /-- The model's own: how long the current phase has lasted (R182, R183). DEDUCED, safe: log entry 5. -/
  phaseTime : Rat
  /-- `tx_low_time`. -/
  lowTime : Rat
  /-- `dout`. -/
  dout : Level
  deriving DecidableEq, Repr

/-- The block's state, with the configuration it runs under (log entry 1) and what the run has still to choose (log
entry 2). -/
structure State where
  /-- The configuration record, written by no step (R36). -/
  cfg : Config
  /-- `FB` (R32). -/
  fb : Memory
  seq : Seq
  rx : Rx
  tx : Tx
  /-- `trace` (R52). -/
  trace : List Event
  /-- The model's own: the level and duration of every phase and latch gap completed on the wire (R190). DEDUCED, safe:
  log entry 12. -/
  wire : List (Level × Rat)
  /-- The model's own: real time in seconds (R211, D46). DEDUCED, safe: log entry 5. -/
  now : Rat
  /-- The model's own: the moves still to come (log entry 2). -/
  agenda : List Move
  /-- The model's own: how many free moves were drawn, the argument of `Config.freeMove` (log entry 2). -/
  moveCount : Nat
  deriving DecidableEq, Repr

/-- Why the machine stops with a fault. The spec has no fault outcome (R320), and no run from reset raises one. -/
inductive Fault where
  /-- Raised by TX's step and by the passing of time in `SHIFT` when `tx_frame` has no word at `tx_pix`. Safe: the model
  stops; unreachable (log entry 15). -/
  | frameWord (pix : Nat)
  deriving DecidableEq, Repr

/-- Why an instruction or a step has no meaning. -/
inductive Refusal where
  /-- Raised by `exec`'s arm of an instruction that has no meaning yet. Safe: the model stops. -/
  | notModelled (mnemonic : String)
  /-- Raised by every step under an invalid configuration (R17, R320). Safe: the model has no run. -/
  | invalidConfig
  /-- Raised by GET outside [0, N-1], to which the spec gives no meaning (R142). Safe: the model stops (log entry 16). -/
  | getOutOfRange (p : Int)
  /-- Raised by a pattern or command whose colour index has no palette entry: the palette is never read there (R75).
  Safe: the model stops; unreachable (log entry 15). -/
  | paletteIndex (c : Nat)
  /-- Raised by the load of DISPATCH when `cmd` is Invalid. Safe: the model stops; unreachable (log entry 15). -/
  | noCommand
  deriving DecidableEq, Repr

/-- The state reset leaves under configuration `cfg` (R340); the elements R340 leaves unspecified hold the values log
entry 3 names (DESIGN CHOICE, unsafe). -/
def State.resetWith (cfg : Config) : State where
  cfg := cfg
  fb := List.replicate cfg.n Pixel.black
  seq :=
    { state := .boot, prog := cfg.bootProgram, pc := 0, hold := .none, cmdUnit := .bytes [], cmd := .invalid,
      loadPending := false, result := .none }
  rx := { buf := [], ovf := false, hold := 0, have_ := false }
  tx :=
    { state := .latch, frame := List.replicate cfg.n 0, pix := 0, bit := 23, phase := .low, phaseTime := 0,
      lowTime := 0, dout := .low }
  trace := []
  wire := []
  now := 0
  agenda := []
  moveCount := 0

/-- The machine right after reset, under the configuration log entry 1 names. -/
def State.reset : State := State.resetWith defaultConfig

end Sys2Proof.Machine
end

