-- ==== Sys2Proof/Machine/Ops.lean ====
section
/-! DEFINITION. The shared operations over the state: reading and writing the framebuffer, raising an error, holding and
completing a micro-operation, loading a program, delivering a unit, handing over a frame, reset. -/

namespace Sys2Proof.Machine

/-- Continue with `f` where the outcome is a next state. -/
def andThen {σ τ φ ρ : Type} (o : Host.Outcome σ φ ρ) (f : σ → Host.Outcome τ φ ρ) : Host.Outcome τ φ ρ :=
  match o with
  | .next s => f s
  | .fault r => .fault r
  | .refused r => .refused r

/-- `FB[k]`; none where the buffer has no entry `k` (R32). -/
def State.readFB (s : State) (k : Nat) : Option Pixel := s.fb[k]?

/-- `FB[k] <- px` (R140). -/
def State.writeFB (s : State) (k : Nat) (px : Pixel) : State := { s with fb := s.fb.set k px }

/-- Every entry of `FB` becomes `px` (R141). -/
def State.fillFB (s : State) (px : Pixel) : State := { s with fb := List.replicate s.cfg.n px }

/-- Append an event to the trace (R52). -/
def State.record (s : State) (e : Event) : State := { s with trace := s.trace ++ [e] }

/-- An error's code (R300). -/
def Err.code : Err → Nat
  | .malformedCommand _ => 1
  | .outOfRangeIndex _ => 2
  | .boundaryOverrun _ => 3

/-- What an error records (R301 to R303). -/
def Err.info : Err → ErrInfo
  | .malformedCommand u => .unit u
  | .outOfRangeIndex c => .colour c
  | .boundaryOverrun p => .position p

/-- `raise E(info)`: the event is appended and nothing else changes; there are no traps (R300, R306). -/
def State.raise (s : State) (e : Err) : State := s.record (.err e.code e.info)

/-- The micro-operation at `pc` has completed: `pc <- pc + 1` (R212). -/
def State.advance (s : State) : State := { s with seq := { s.seq with pc := s.seq.pc + 1 } }

/-- `seq_hold <- h` (R40). -/
def State.holdFor (s : State) (h : SeqHold) : State := { s with seq := { s.seq with hold := h } }

/-- A micro-operation returns `r` to whoever issued it (R142, R162; log entry 7). -/
def State.returns (s : State) (r : OpResult) : State := { s with seq := { s.seq with result := r } }

/-- `seq_state <- st` (R37). -/
def State.goTo (s : State) (st : SeqState) : State := { s with seq := { s.seq with state := st } }

/-- `prog <- ops; pc <- 0` (R270, R272, R273). -/
def State.load (s : State) (ops : List Instr) : State :=
  { s with seq := { s.seq with prog := ops, pc := 0, loadPending := false } }

/-- `emit(fr)`, the hand-over: TX takes its snapshot and starts the first bit symbol (R181). -/
def State.handOver (s : State) (fr : List WireWord) : State :=
  { s with
    tx := { s.tx with state := .shift, frame := fr, pix := 0, bit := 23, phase := .high, phaseTime := 0, dout := .high }
    trace := s.trace ++ [.frame fr] }

/-- `deliver(u)`: SEQ in `AWAIT` accepts the unit, in any other state it is dropped whole (R263). -/
def State.deliver (s : State) (u : CmdUnit) : State :=
  if s.seq.state = .await then { s with seq := { s.seq with cmdUnit := u, state := .parse } }
  else s.record (.dropped u)

/-- A reset from outside (R340, R341): every element of the block at its reset value. Real time and the moves still to come
are the environment's and go on. Log entry 13. -/
def State.hwReset (s : State) : State :=
  { State.resetWith s.cfg with now := s.now, agenda := s.agenda, moveCount := s.moveCount }

end Sys2Proof.Machine
end

