-- ==== Sys2Proof/Machine/Flags.lean ====
section
/-! DEFINITION. The derived conditions of spec/10_state.md R49, and what SEQ is doing. The block has no condition codes. -/

namespace Sys2Proof.Machine

/-- `seq_busy = (seq_state != AWAIT)` (R49). -/
def State.seqBusy (s : State) : Bool := decide (s.seq.state ≠ .await)

/-- `tx_busy = (tx_state != IDLE)` (R49). -/
def State.txBusy (s : State) : Bool := decide (s.tx.state ≠ .idle)

/-- SEQ is executing `prog`: in `BOOT`, or in `DISPATCH` with its program loaded (R212). -/
def State.running (s : State) : Bool :=
  decide (s.seq.state = .boot) || (decide (s.seq.state = .dispatch) && !s.seq.loadPending)

/-- What `seq_hold` waits for has come: TX is idle, or the delay has expired (R40). -/
def State.holdLifted (s : State) : Bool :=
  match s.seq.hold with
  | .none => true
  | .txBusy => !s.txBusy
  | .delay t0 t => decide (t0 + t ≤ s.now)

/-- SEQ can take a step: it is not in `AWAIT` (R264), and the micro-operation it executes is not held (R40, R355). -/
def State.seqEnabled (s : State) : Bool := s.seqBusy && (!s.running || s.holdLifted)

end Sys2Proof.Machine
end

