-- ==== Sys2Proof/Machine/Brightness.lean ====
section
/-! DEFINITION. SCALE (spec/41_brightness.md): exact rational scaling and packing in wire order. -/

namespace Sys2Proof.Machine

/-- `f = min(1, max(0, BRIGHTNESS))` (R13, R162). -/
def factor (cfg : Config) : Rat := min 1 (max 0 cfg.brightness)

/-- `scale_ch(x, f) = floor(x * f)`, exactly (R160). -/
def scaleChannel (x : Byte) (f : Rat) : Byte := BitVec.ofNat 8 ⌊(x.toNat : Rat) * f⌋₊

/-- The transmission word of a pixel: green, red, blue, green most significant (R110, R161). -/
def pack (px : Pixel) (f : Rat) : WireWord :=
  (scaleChannel px.g f ++ (scaleChannel px.r f ++ scaleChannel px.b f : BitVec 16) : BitVec 24)

/-- The TransmissionFrame of a framebuffer: word `k` from `FB[k]`, `N` words (R112, R162). -/
def frameOf (cfg : Config) (fb : Memory) : List WireWord :=
  (List.range cfg.n).map fun k => pack (fb.getD k Pixel.black) (factor cfg)

/-- `SCALE`: return the frame; `FB` is not written (R162, R163). -/
def execScale (s : State) : Host.Outcome State Fault Refusal :=
  .next (s.returns (.frame (frameOf s.cfg s.fb))).advance

end Sys2Proof.Machine
end

