-- ==== Sys2Proof/Machine/Transmitter.lean ====
section
/-! DEFINITION. TRANSMIT and the serializer TX (spec/42_transmitter.md). -/

namespace Sys2Proof.Machine

/-- `TRANSMIT fr`: hold until TX is IDLE, then hand over (R180). While TX is busy the step only records the hold. -/
def execTransmit (fr : List WireWord) (s : State) : Host.Outcome State Fault Refusal :=
  if s.txBusy then .next (s.holdFor .txBusy) else .next ((s.holdFor .none).handOver fr).advance

/-- `TxH(x)` (R111). -/
def highTime (cfg : Config) (x : Bool) : Rat := if x then cfg.t1h else cfg.t0h

/-- The nominal duration of a phase of the symbol of bit `x` (R111, R182, R183). -/
def nominal (cfg : Config) (x : Bool) : TxPhase → Rat
  | .high => highTime cfg x
  | .low => cfg.tBit - highTime cfg x

/-- The least duration a phase may have (R182, R183). -/
def shortest (cfg : Config) (x : Bool) (ph : TxPhase) : Rat := nominal cfg x ph * (1 - cfg.jitter)

/-- The greatest duration a phase may have (R182, R183). -/
def longest (cfg : Config) (x : Bool) (ph : TxPhase) : Rat := nominal cfg x ph * (1 + cfg.jitter)

/-- `x = tx_frame[tx_pix][tx_bit]`, the bit on the wire (R182). -/
def Tx.currentBit? (t : Tx) : Option Bool := t.frame[t.pix]?.map fun w => w.getLsbD t.bit

/-- The level of the wire while a phase lasts (R111). -/
def TxPhase.level : TxPhase → Level
  | .high => .high
  | .low => .low

/-- The end of a high phase (R182). -/
def Tx.endHigh (t : Tx) : Tx := { t with dout := .low, phase := .low, phaseTime := 0 }

/-- The end of a low phase: the latch gap after the last bit of the frame, else the next symbol at once (R183). -/
def Tx.endLow (n : Nat) (t : Tx) : Tx :=
  if t.pix + 1 = n ∧ t.bit = 0 then { t with state := .latch, lowTime := 0, phaseTime := 0 }
  else if 0 < t.bit then { t with bit := t.bit - 1, phase := .high, phaseTime := 0, dout := .high }
  else { t with pix := t.pix + 1, bit := 23, phase := .high, phaseTime := 0, dout := .high }

/-- The end of the current phase (R182, R183). -/
def Tx.endPhase (n : Nat) (t : Tx) : Tx :=
  match t.phase with
  | .high => t.endHigh
  | .low => t.endLow n

/-- The phase of bit `x` may end now: its duration lies in the tolerance (R182 to R184). -/
def phaseMayEnd (cfg : Config) (x : Bool) (t : Tx) : Bool :=
  decide (shortest cfg x t.phase ≤ t.phaseTime) && decide (t.phaseTime ≤ longest cfg x t.phase)

/-- TX ends the current phase, and the wire record gains it (R182, R183, R190). -/
def State.endPhase (s : State) : State :=
  { s with tx := s.tx.endPhase s.cfg.n, wire := s.wire ++ [(s.tx.phase.level, s.tx.phaseTime)] }

/-- The end of the latch gap (R186), and the wire record gains it (R190). -/
def State.endLatch (s : State) : State :=
  { s with tx := { s.tx with state := .idle }, wire := s.wire ++ [(.low, s.tx.lowTime)] }

/-- TX's step. In `IDLE` it takes none (R187); a step that is not enabled changes nothing (log entry 6). -/
def txStep (s : State) : Host.Outcome State Fault Refusal :=
  match s.tx.state with
  | .idle => .next s
  | .latch => .next (if s.cfg.tLatch ≤ s.tx.lowTime then s.endLatch else s)
  | .shift =>
    match s.tx.currentBit? with
    | none => .fault (.frameWord s.tx.pix)
    | some x => .next (if phaseMayEnd s.cfg x s.tx then s.endPhase else s)

/-- TX can take a step: a phase may end, or the latch gap is complete (R182, R183, R186, R355). -/
def State.txEnabled (s : State) : Bool :=
  match s.tx.state with
  | .idle => false
  | .latch => decide (s.cfg.tLatch ≤ s.tx.lowTime)
  | .shift =>
    match s.tx.currentBit? with
    | none => false
    | some x => phaseMayEnd s.cfg x s.tx

/-- `dt` seconds pass: real time, the current phase's time in `SHIFT`, `tx_low_time` in `LATCH` (R47, R185). -/
def State.elapse (s : State) (dt : Rat) : State :=
  match s.tx.state with
  | .idle => { s with now := s.now + dt }
  | .latch => { s with now := s.now + dt, tx := { s.tx with lowTime := s.tx.lowTime + dt } }
  | .shift => { s with now := s.now + dt, tx := { s.tx with phaseTime := s.tx.phaseTime + dt } }

/-- Real time passes. It never runs backwards, and never past the tolerance of the current phase, outside which the model
has no run (R184, R350); a time that may not pass changes nothing (log entry 6). -/
def passTime (dt : Rat) (s : State) : Host.Outcome State Fault Refusal :=
  match s.tx.state with
  | .idle => .next (if 0 ≤ dt then s.elapse dt else s)
  | .latch => .next (if 0 ≤ dt then s.elapse dt else s)
  | .shift =>
    match s.tx.currentBit? with
    | none => .fault (.frameWord s.tx.pix)
    | some x => .next (if 0 ≤ dt ∧ s.tx.phaseTime + dt ≤ longest s.cfg x s.tx.phase then s.elapse dt else s)

end Sys2Proof.Machine
end

