-- ==== Sys2Proof/Machine/Animation.lean ====
section
/-! DEFINITION. RENDER, DELAY and the patterns (spec/43_animation.md). -/

namespace Sys2Proof.Machine

/-- `RENDER`: `TRANSMIT (SCALE)` as one step (R210). -/
def execRender (s : State) : Host.Outcome State Fault Refusal := execTransmit (frameOf s.cfg s.fb) s

/-- What DELAY holds for: the hold it issued, or, when it is first reached, `DELAY(now, t)` (R211). -/
def delayHold (t : Rat) (s : State) : Rat × Rat :=
  match s.seq.hold with
  | .delay t0 t' => (t0, t')
  | .none => (s.now, t)
  | .txBusy => (s.now, t)

/-- `DELAY t`: hold from its own issue until at least `t` has passed (R211). -/
def execDelay (t : Rat) (s : State) : Host.Outcome State Fault Refusal :=
  let h := delayHold t s
  if h.1 + h.2 ≤ s.now then .next (s.holdFor .none).advance else .next (s.holdFor (.delay h.1 h.2))

/-- SEQ takes up the micro-operation list a pattern expands to (R20, R115; log entry 8). A colour index without a palette
entry is never read (R75). -/
def playPattern (p : Pattern) (s : State) : Host.Outcome State Fault Refusal :=
  match p.colour? with
  | none => .next (s.load (s.cfg.expand p))
  | some c => if s.cfg.paletteHas c then .next (s.load (s.cfg.expand p)) else .refused (.paletteIndex c)

/-- `FILL_BOUNCE(c)` (R214). -/
def execFillBounce (c : Nat) (s : State) : Host.Outcome State Fault Refusal := playPattern (.fillBounce c) s

/-- `CHASE_A(c)` (R216). -/
def execChaseA (c : Nat) (s : State) : Host.Outcome State Fault Refusal := playPattern (.chaseA c) s

/-- `CHASE_B(c)` (R217). -/
def execChaseB (c : Nat) (s : State) : Host.Outcome State Fault Refusal := playPattern (.chaseB c) s

/-- `SECTION_FWD(c)` (R220). -/
def execSectionFwd (c : Nat) (s : State) : Host.Outcome State Fault Refusal := playPattern (.sectionFwd c) s

/-- `SECTION_REV(c)` (R221). -/
def execSectionRev (c : Nat) (s : State) : Host.Outcome State Fault Refusal := playPattern (.sectionRev c) s

/-- `RAINBOW` (R224). -/
def execRainbow (s : State) : Host.Outcome State Fault Refusal := playPattern .rainbow s

end Sys2Proof.Machine
end

