-- ==== Sys2Proof/Machine/Command.lean ====
section
/-! DEFINITION. The commands' DISPATCH steps (spec/44_command.md R270 to R273). -/

namespace Sys2Proof.Machine

/-- `CMD_FILL`: `Fill(c)` plays the fill-bounce (R270). -/
def execCmdFill (c : Nat) (s : State) : Host.Outcome State Fault Refusal := execFillBounce c s

/-- `CMD_DIR_A`: `Directional(0, c)` plays the forward chase of `CHASE_MODE` (R272). -/
def execCmdDirA (c : Nat) (s : State) : Host.Outcome State Fault Refusal :=
  match s.cfg.chaseMode with
  | .pair => execChaseA c s
  | .sectioned => execSectionFwd c s

/-- `CMD_DIR_B`: `Directional(d, c)` plays the reverse chase of `CHASE_MODE`, whatever `d` (R271, R273). -/
def execCmdDirB (_d c : Nat) (s : State) : Host.Outcome State Fault Refusal :=
  match s.cfg.chaseMode with
  | .pair => execChaseB c s
  | .sectioned => execSectionRev c s

end Sys2Proof.Machine
end

