-- ==== Sys2Proof/Machine/PixelBuffer.lean ====
section
/-! DEFINITION. SET, FILL and GET (spec/40_pixelbuffer.md). -/

namespace Sys2Proof.Machine

/-- `SET p, px`: write the pixel, or skip the write and raise BoundaryOverrun (R140, C4). -/
def execSet (p : Int) (px : Pixel) (s : State) : Host.Outcome State Fault Refusal :=
  if s.cfg.inRange p then .next (s.writeFB p.toNat px).advance
  else .next (s.raise (.boundaryOverrun p)).advance

/-- `FILL px` (R141). -/
def execFill (px : Pixel) (s : State) : Host.Outcome State Fault Refusal :=
  .next (s.fillFB px).advance

/-- `GET k`: the pixel as stored; outside [0, N-1] the spec gives the step no meaning and it is refused (R142). -/
def execGet (k : Int) (s : State) : Host.Outcome State Fault Refusal :=
  if s.cfg.inRange k then
    match s.readFB k.toNat with
    | some px => .next (s.returns (.pixel px)).advance
    | none => .refused (.getOutOfRange k)
  else .refused (.getOutOfRange k)

end Sys2Proof.Machine
end

