-- ==== Sys2Proof/Machine/Dispatch.lean ====
section
/-! DEFINITION. One arm per constructor of Instr. -/

namespace Sys2Proof.Machine

def exec (i : Instr) (s : State) : Host.Outcome State Fault Refusal :=
  match i with
  | .cmdFill c => Sys2Proof.Machine.execCmdFill c s
  | .cmdDirA c => Sys2Proof.Machine.execCmdDirA c s
  | .cmdDirB d c => Sys2Proof.Machine.execCmdDirB d c s
  | .set p px => Sys2Proof.Machine.execSet p px s
  | .fill px => Sys2Proof.Machine.execFill px s
  | .get k => Sys2Proof.Machine.execGet k s
  | .scale => Sys2Proof.Machine.execScale s
  | .transmit fr => Sys2Proof.Machine.execTransmit fr s
  | .render => Sys2Proof.Machine.execRender s
  | .delay t => Sys2Proof.Machine.execDelay t s
  | .fillBounce c => Sys2Proof.Machine.execFillBounce c s
  | .chaseA c => Sys2Proof.Machine.execChaseA c s
  | .chaseB c => Sys2Proof.Machine.execChaseB c s
  | .sectionFwd c => Sys2Proof.Machine.execSectionFwd c s
  | .sectionRev c => Sys2Proof.Machine.execSectionRev c s
  | .rainbow => Sys2Proof.Machine.execRainbow s

end Sys2Proof.Machine
end

