-- ==== Sys2Proof/Machine/Receiver.lean ====
section
/-! DEFINITION. RX: framing bytes into command units (spec/44_command.md R260 to R263). -/

namespace Sys2Proof.Machine

/-- `complete(buf, ovf)`: the unit of a finished line, one trailing CR removed (R103, R261). -/
def completeLine (buf : List Byte) (ovf : Bool) : CmdUnit :=
  if ovf then .overflow
  else if buf.getLast? = some carriageReturn then .bytes buf.dropLast
  else .bytes buf

/-- RX's byte step in `LINE` mode (R260). -/
def rxLine (b : Byte) (s : State) : State :=
  if b = lineFeed then
    { s.deliver (completeLine s.rx.buf s.rx.ovf) with rx := { s.rx with buf := [], ovf := false } }
  else if s.rx.buf.length < 3 then { s with rx := { s.rx with buf := s.rx.buf ++ [b] } }
  else { s with rx := { s.rx with ovf := true } }

/-- RX's byte step in `FIXED2` mode (R262). -/
def rxFixed2 (b : Byte) (s : State) : State :=
  if s.rx.have_ then { s.deliver (.bytes [s.rx.hold, b]) with rx := { s.rx with have_ := false } }
  else { s with rx := { s.rx with hold := b, have_ := true } }

/-- RX takes an offered byte, in every `seq_state` (R260, R262, R318). -/
def rxByte (b : Byte) (s : State) : State :=
  match s.cfg.unitMode with
  | .line => rxLine b s
  | .fixed2 => rxFixed2 b s

end Sys2Proof.Machine
end

