-- ==== Sys2Proof/Machine/Sequencer.lean ====
section
/-! DEFINITION. SEQ's step in every `seq_state` (spec/44_command.md R264 to R274, spec/43_animation.md R212,
spec/70_reset_and_hazards.md R345), what each move does, and where a unit is placed to be run. -/

namespace Sys2Proof.Machine

/-- `PARSE` (R265, R266). -/
def parseStep (s : State) : State :=
  { s with seq := { s.seq with cmd := parse s.cfg.unitMode s.seq.cmdUnit, state := .validate } }

/-- The error a rejected unit raises (R267, R268). -/
def rejectErr : Reject → Err
  | .malformedCommand u => .malformedCommand u
  | .outOfRangeIndex c => .outOfRangeIndex c

/-- `VALIDATE`: reject and go back to `AWAIT`, or go on to `DISPATCH` (R267 to R269). -/
def validateStep (s : State) : State :=
  match validate s.seq.cmdUnit s.seq.cmd with
  | some r => (s.raise (rejectErr r)).goTo .await
  | none => { s with seq := { s.seq with state := .dispatch, loadPending := true } }

/-- The program load of `DISPATCH`: the command's instruction runs (R270 to R273). -/
def loadStep (s : State) : Host.Outcome State Fault Refusal :=
  match s.seq.cmd.instr? with
  | some i => exec i s
  | none => .refused .noCommand

/-- A step of a running program: the micro-operation at `pc`, or, when the program has completed, `AWAIT` (R212, R274,
R345). -/
def runStep (s : State) : Host.Outcome State Fault Refusal :=
  match s.seq.prog[s.seq.pc]? with
  | some i => exec i s
  | none => .next (s.goTo .await)

/-- SEQ's step. In `AWAIT` it takes none (R264). -/
def seqStep (s : State) : Host.Outcome State Fault Refusal :=
  match s.seq.state with
  | .boot => runStep s
  | .await => .next s
  | .parse => .next (parseStep s)
  | .validate => .next (validateStep s)
  | .dispatch => if s.seq.loadPending then loadStep s else runStep s

/-- What a move does (R30, R305). -/
def act (m : Move) (s : State) : Host.Outcome State Fault Refusal :=
  match m with
  | .tick dt => passTime dt s
  | .rx b => .next (rxByte b s)
  | .seq => seqStep s
  | .tx => txStep s
  | .reset => .next s.hwReset

/-- The next move: the agenda's first, or, where the agenda gives none, the next free one (log entry 2). -/
def State.nextMove (s : State) : Move :=
  match s.agenda with
  | m :: _ => m
  | [] => Config.freeMove s.moveCount

/-- The state once its next move is taken up. -/
def State.popMove (s : State) : State :=
  match s.agenda with
  | _ :: ms => { s with agenda := ms }
  | [] => { s with moveCount := s.moveCount + 1 }

/-- The unit `u` accepted, parsed and validated, and SEQ about to move: where the next step finds the instruction it runs
(log entry 11). -/
def State.placeUnit (s : State) (u : CmdUnit) : State :=
  let s1 : State := { s with seq := { s.seq with cmdUnit := u, state := .parse, hold := .none }, agenda := .seq :: s.agenda }
  validateStep (parseStep s1)

end Sys2Proof.Machine
end

