-- ==== Sys2Proof/Machine/Step.lean ====
section
/-! DEFINITION. One step of the machine, and an instruction placed where the next step runs it. -/

namespace Sys2Proof.Machine

/-- One step: under a valid configuration (R17, R320) the next move happens. -/
def step (s : State) : Host.Outcome State Fault Refusal :=
  if s.cfg.valid then act s.nextMove s.popMove else .refused .invalidConfig

/-- `s` with the command unit of `w` (numbered as the opcode table numbers it) accepted and validated, so that the next step
is its DISPATCH step (log entry 11); unchanged where the table has no format of `nbits` bits. -/
def State.withFetchWord (s : State) (nbits w : Nat) : State :=
  match tableUnit nbits w with
  | some u => s.placeUnit u
  | none => s

end Sys2Proof.Machine
end

