-- ==== Sys2Proof/Safety.lean ====
section
/-! DEFINITION. The terms claims use: runs of moves, the invariant of a good state, quiescence and the observation
(spec/70_reset_and_hazards.md R355, R356), and what a program does to the framebuffer and the trace when nothing else is
looked at. -/

namespace Sys2Proof

/-- A micro-operation that pattern programs contain (R113), with operands its rule admits. -/
def Instr.inProgram : Instr → Bool
  | .set _ _ => true
  | .render => true
  | .delay t => decide (0 ≤ t)
  | .cmdFill _ => false
  | .cmdDirA _ => false
  | .cmdDirB _ _ => false
  | .fill _ => false
  | .get _ => false
  | .scale => false
  | .transmit _ => false
  | .fillBounce _ => false
  | .chaseA _ => false
  | .chaseB _ => false
  | .sectionFwd _ => false
  | .sectionRev _ => false
  | .rainbow => false

/-- The instruction is one of the seven micro-operations (R113). -/
def Instr.isMicro : Instr → Bool
  | .set _ _ => true
  | .fill _ => true
  | .get _ => true
  | .scale => true
  | .transmit _ => true
  | .render => true
  | .delay _ => true
  | .cmdFill _ => false
  | .cmdDirA _ => false
  | .cmdDirB _ _ => false
  | .fillBounce _ => false
  | .chaseA _ => false
  | .chaseB _ => false
  | .sectionFwd _ => false
  | .sectionRev _ => false
  | .rainbow => false

/-- A decoded command's operands are digits' values (R39). -/
def Cmd.inDigits : Cmd → Prop
  | .fill c => c ≤ 9
  | .directional d c => d ≤ 9 ∧ c ≤ 9
  | .invalid => True

/-- The instruction is a SET. -/
def Instr.isSet : Instr → Bool
  | .set _ _ => true
  | .cmdFill _ => false
  | .cmdDirA _ => false
  | .cmdDirB _ _ => false
  | .fill _ => false
  | .get _ => false
  | .scale => false
  | .transmit _ => false
  | .render => false
  | .delay _ => false
  | .fillBounce _ => false
  | .chaseA _ => false
  | .chaseB _ => false
  | .sectionFwd _ => false
  | .sectionRev _ => false
  | .rainbow => false

/-- The instruction is a DELAY. -/
def Instr.isDelay : Instr → Bool
  | .delay _ => true
  | .cmdFill _ => false
  | .cmdDirA _ => false
  | .cmdDirB _ _ => false
  | .set _ _ => false
  | .fill _ => false
  | .get _ => false
  | .scale => false
  | .transmit _ => false
  | .render => false
  | .fillBounce _ => false
  | .chaseA _ => false
  | .chaseB _ => false
  | .sectionFwd _ => false
  | .sectionRev _ => false
  | .rainbow => false

/-- The instruction is a SET of a position outside [0, N-1]: it raises BoundaryOverrun (R140). -/
def Instr.overruns (cfg : Config) : Instr → Bool
  | .set p _ => !cfg.inRange p
  | .cmdFill _ => false
  | .cmdDirA _ => false
  | .cmdDirB _ _ => false
  | .fill _ => false
  | .get _ => false
  | .scale => false
  | .transmit _ => false
  | .render => false
  | .delay _ => false
  | .fillBounce _ => false
  | .chaseA _ => false
  | .chaseB _ => false
  | .sectionFwd _ => false
  | .sectionRev _ => false
  | .rainbow => false

end Sys2Proof

namespace Sys2Proof.Machine

/-- The moves of a list, one after another. -/
def runMoves : List Move → State → Host.Outcome State Fault Refusal
  | [], s => .next s
  | m :: ms, s => andThen (act m s) (runMoves ms)

/-- The instructions of a list executed one after another. -/
def runOps : List Instr → State → Host.Outcome State Fault Refusal
  | [], s => .next s
  | i :: is, s => andThen (exec i s) (runOps is)

/-- The bytes the transport offers in a list of moves, in order. -/
def offered : List Move → List Byte
  | [] => []
  | .rx b :: ms => b :: offered ms
  | .tick _ :: ms => offered ms
  | .seq :: ms => offered ms
  | .tx :: ms => offered ms
  | .reset :: ms => offered ms

/-- The block is quiescent (R355). -/
def Quiescent (s : State) : Prop := s.seq.state = .await ∧ s.tx.state = .idle

/-- The moves still to come play no part in what a move does: the states are the same but for them. -/
def SameButAgenda (s t : State) : Prop := t = { s with agenda := t.agenda, moveCount := t.moveCount }

/-- `r` is an unending run that makes the moves `m`. A run of `step` is one (Laws/Step.lean). -/
def IsRun (m : Nat → Move) (r : Nat → State) : Prop :=
  ∀ k, ∃ u, SameButAgenda (r k) u ∧ act (m k) u = .next (r (k + 1))

/-- A fair run (R355): an agent that can take a step, and goes on being able to, takes one in the end (weak fairness; TX's
latch step and the expiry of a DELAY are such steps), and real time passes every bound. DEDUCED, safe: log entry 20. -/
structure FairRun (m : Nat → Move) (r : Nat → State) : Prop where
  run : IsRun m r
  seq : ∀ k, ∃ j, k ≤ j ∧ (m j = .seq ∨ (r j).seqEnabled = false)
  tx : ∀ k, ∃ j, k ≤ j ∧ (m j = .tx ∨ (r j).txEnabled = false)
  time : ∀ T : Rat, ∃ k, T ≤ (r k).now

/-- `tr` is one of the traces of the observation of `bytes` under `cfg`: the trace at the first quiescent state after RX has
taken the last byte, in some run from reset (R356). -/
def Observes (cfg : Config) (bytes : List Byte) (tr : List Event) : Prop :=
  ∃ ms t, Move.reset ∉ ms ∧ offered ms = bytes ∧ runMoves ms (State.resetWith cfg) = .next t ∧ Quiescent t ∧
    tr = t.trace ∧
    ∀ pre post u, ms = pre ++ post → post ≠ [] → offered pre = bytes → runMoves pre (State.resetWith cfg) = .next u →
      ¬ Quiescent u

/-- Everything but SEQ, the framebuffer, TX and the trace is as before. -/
def RestSame (s t : State) : Prop :=
  t.cfg = s.cfg ∧ t.rx = s.rx ∧ t.wire = s.wire ∧ t.now = s.now ∧ t.agenda = s.agenda ∧ t.moveCount = s.moveCount

/-- What `seq_hold` says of SEQ (R40): a hold is the hold of the micro-operation at `pc` of a running program. -/
def HoldOk (s : State) : Prop :=
  match s.seq.hold with
  | .none => True
  | .txBusy => s.running = true ∧ s.seq.prog[s.seq.pc]? = some .render
  | .delay t0 t => s.running = true ∧ s.seq.prog[s.seq.pc]? = some (.delay t) ∧ 0 ≤ t0 ∧ t0 ≤ s.now

/-- SEQ's part of the invariant (R37 to R40). -/
structure SeqInv (s : State) : Prop where
  pc : s.seq.pc ≤ s.seq.prog.length
  prog : ∀ i ∈ s.seq.prog, i.inProgram = true
  finished : s.running = false → s.seq.pc = s.seq.prog.length
  hold : HoldOk s
  cmd : s.seq.cmd.inDigits
  pending : s.seq.loadPending = true → s.seq.state = .dispatch ∧ s.seq.cmd ≠ .invalid
  parsed : s.seq.state = .validate → s.seq.cmd = parse s.cfg.unitMode s.seq.cmdUnit

/-- RX's part of the invariant (R42). -/
structure RxInv (s : State) : Prop where
  buf : s.rx.buf.length ≤ 3
  ovf : s.rx.ovf = true → s.rx.buf.length = 3

/-- TX's part of the invariant (R44 to R48): the snapshot has `N` words, the position is a bit of it, `dout` is high exactly
in high phases, and a phase has not lasted longer than the tolerance allows (R184). -/
structure TxInv (s : State) : Prop where
  frame : s.tx.frame.length = s.cfg.n
  pix : s.tx.pix < s.cfg.n
  bit : s.tx.bit < 24
  line : s.tx.dout = .high ↔ s.tx.state = .shift ∧ s.tx.phase = .high
  phaseTime : s.tx.state = .shift → 0 ≤ s.tx.phaseTime ∧
    ∀ x, s.tx.currentBit? = some x → s.tx.phaseTime ≤ longest s.cfg x s.tx.phase
  lowTime : 0 ≤ s.tx.lowTime

/-- The invariant of a good state. -/
structure Inv (s : State) : Prop where
  cfg : s.cfg.valid = true
  memory : Memory.wf s.cfg.n s.fb = true
  seq : SeqInv s
  rx : RxInv s
  tx : TxInv s
  now : 0 ≤ s.now
  frames : ∀ ws, Event.frame ws ∈ s.trace → ws.length = s.cfg.n

/-- A duration on the wire is one the tolerance allows (R184, R350), or a latch gap (R186). -/
def PulseOk (cfg : Config) (p : Level × Rat) : Prop :=
  match p.1 with
  | .high => ∃ x, shortest cfg x .high ≤ p.2 ∧ p.2 ≤ longest cfg x .high
  | .low => (∃ x, shortest cfg x .low ≤ p.2 ∧ p.2 ≤ longest cfg x .low) ∨ cfg.tLatch ≤ p.2

/-- TX has just been handed a frame: the first instant of its first bit symbol (R181). -/
def FrameStart (s : State) : Prop :=
  s.tx.state = .shift ∧ s.tx.pix = 0 ∧ s.tx.bit = 23 ∧ s.tx.phase = .high ∧ s.tx.phaseTime = 0

/-- `ps` begins with the two phases of every symbol of frame `fr`, most significant bit of word 0 first, each within the
tolerance (R111, R112, R190). -/
def CarriesFrame (cfg : Config) (fr : List WireWord) (ps : List (Level × Rat)) : Prop :=
  ∀ k w, fr[k]? = some w → ∀ j, j < 24 → ∃ dH dL,
    ps[2 * (24 * k + j)]? = some (.high, dH) ∧ ps[2 * (24 * k + j) + 1]? = some (.low, dL) ∧
    shortest cfg (w.getLsbD (23 - j)) .high ≤ dH ∧ dH ≤ longest cfg (w.getLsbD (23 - j)) .high ∧
    shortest cfg (w.getLsbD (23 - j)) .low ≤ dL ∧ dL ≤ longest cfg (w.getLsbD (23 - j)) .low

/-- The framebuffer and the events a program leaves. -/
structure Played where
  fb : Memory
  events : List Event
  deriving DecidableEq, Repr

/-- What one micro-operation does to the framebuffer and the trace, its holds not looked at (R140, R141, R180, R210). -/
def playOp (cfg : Config) (v : Played) : Instr → Played
  | .set p px =>
    if cfg.inRange p then { v with fb := v.fb.set p.toNat px }
    else { v with events := v.events ++ [.err 3 (.position p)] }
  | .fill px => { v with fb := List.replicate cfg.n px }
  | .transmit fr => { v with events := v.events ++ [.frame fr] }
  | .render => { v with events := v.events ++ [.frame (frameOf cfg v.fb)] }
  | .get _ => v
  | .scale => v
  | .delay _ => v
  | .cmdFill _ => v
  | .cmdDirA _ => v
  | .cmdDirB _ _ => v
  | .fillBounce _ => v
  | .chaseA _ => v
  | .chaseB _ => v
  | .sectionFwd _ => v
  | .sectionRev _ => v
  | .rainbow => v

/-- What a program does to the framebuffer and the trace: its micro-operations in list order (R20, R79). -/
def play (cfg : Config) (ops : List Instr) (v : Played) : Played := ops.foldl (playOp cfg) v

/-- What a program does from an all-Black framebuffer and no event. -/
def playFromBlack (cfg : Config) (ops : List Instr) : Played := play cfg ops ⟨List.replicate cfg.n Pixel.black, []⟩

/-- The frame of an event. -/
def Event.frame? : Event → Option (List WireWord)
  | .frame ws => some ws
  | .err _ _ => none
  | .dropped _ => none

/-- The frames among events, in order. -/
def framesIn (es : List Event) : List (List WireWord) := es.filterMap Event.frame?

/-- The event is not a dropped unit: SEQ caused it. -/
def Event.bySeq : Event → Bool
  | .frame _ => true
  | .err _ _ => true
  | .dropped _ => false

/-- The events SEQ caused, in order. -/
def seqEvents (es : List Event) : List Event := es.filter Event.bySeq

/-- The frame in which the positions `lit` are the word of `px` and every other word is that of Black. -/
def litFrame (cfg : Config) (px : Pixel) (lit : Int → Bool) : List WireWord :=
  (List.range cfg.n).map fun k => if lit k then pack px (factor cfg) else 0

/-- The all-zero frame. -/
def darkFrame (cfg : Config) : List WireWord := List.replicate cfg.n 0

/-- A program runs throughout the moves of the list: SEQ is executing it before each of them and after the last. -/
def Within : List Move → State → Prop
  | [], s => s.running = true
  | m :: ms, s => s.running = true ∧ ∃ t, act m s = .next t ∧ Within ms t

/-- The sizes R229 lists of a program: SETs, RENDERs, DELAYs, and SETs of a position out of range, each of which raises one
BoundaryOverrun. -/
def sizes (cfg : Config) (ops : List Instr) : Nat × Nat × Nat × Nat :=
  (ops.countP Instr.isSet, ops.countP (fun i => decide (i = .render)), ops.countP Instr.isDelay,
   ops.countP (Instr.overruns cfg))

end Sys2Proof.Machine
end

