-- ==== Sys2Proof/Laws/State.lean ====
section
/-! SUPPORT. What each update of the state does to each field, so that no proof unfolds a record update. -/

namespace Sys2Proof.Machine


@[simp] theorem State.writeFB_cfg (s : State) (k : Nat) (px : Pixel) : (s.writeFB k px).cfg = s.cfg := rfl
@[simp] theorem State.writeFB_fb (s : State) (k : Nat) (px : Pixel) : (s.writeFB k px).fb = s.fb.set k px := rfl
@[simp] theorem State.writeFB_seq (s : State) (k : Nat) (px : Pixel) : (s.writeFB k px).seq = s.seq := rfl
@[simp] theorem State.writeFB_rx (s : State) (k : Nat) (px : Pixel) : (s.writeFB k px).rx = s.rx := rfl
@[simp] theorem State.writeFB_tx (s : State) (k : Nat) (px : Pixel) : (s.writeFB k px).tx = s.tx := rfl
@[simp] theorem State.writeFB_trace (s : State) (k : Nat) (px : Pixel) : (s.writeFB k px).trace = s.trace := rfl
@[simp] theorem State.writeFB_wire (s : State) (k : Nat) (px : Pixel) : (s.writeFB k px).wire = s.wire := rfl
@[simp] theorem State.writeFB_now (s : State) (k : Nat) (px : Pixel) : (s.writeFB k px).now = s.now := rfl
@[simp] theorem State.writeFB_agenda (s : State) (k : Nat) (px : Pixel) : (s.writeFB k px).agenda = s.agenda := rfl
@[simp] theorem State.writeFB_moveCount (s : State) (k : Nat) (px : Pixel) : (s.writeFB k px).moveCount = s.moveCount :=
  rfl

@[simp] theorem State.fillFB_cfg (s : State) (px : Pixel) : (s.fillFB px).cfg = s.cfg := rfl
@[simp] theorem State.fillFB_fb (s : State) (px : Pixel) : (s.fillFB px).fb = List.replicate s.cfg.n px := rfl
@[simp] theorem State.fillFB_seq (s : State) (px : Pixel) : (s.fillFB px).seq = s.seq := rfl
@[simp] theorem State.fillFB_rx (s : State) (px : Pixel) : (s.fillFB px).rx = s.rx := rfl
@[simp] theorem State.fillFB_tx (s : State) (px : Pixel) : (s.fillFB px).tx = s.tx := rfl
@[simp] theorem State.fillFB_trace (s : State) (px : Pixel) : (s.fillFB px).trace = s.trace := rfl
@[simp] theorem State.fillFB_wire (s : State) (px : Pixel) : (s.fillFB px).wire = s.wire := rfl
@[simp] theorem State.fillFB_now (s : State) (px : Pixel) : (s.fillFB px).now = s.now := rfl
@[simp] theorem State.fillFB_agenda (s : State) (px : Pixel) : (s.fillFB px).agenda = s.agenda := rfl
@[simp] theorem State.fillFB_moveCount (s : State) (px : Pixel) : (s.fillFB px).moveCount = s.moveCount := rfl

@[simp] theorem State.record_cfg (s : State) (e : Event) : (s.record e).cfg = s.cfg := rfl
@[simp] theorem State.record_fb (s : State) (e : Event) : (s.record e).fb = s.fb := rfl
@[simp] theorem State.record_seq (s : State) (e : Event) : (s.record e).seq = s.seq := rfl
@[simp] theorem State.record_rx (s : State) (e : Event) : (s.record e).rx = s.rx := rfl
@[simp] theorem State.record_tx (s : State) (e : Event) : (s.record e).tx = s.tx := rfl
@[simp] theorem State.record_trace (s : State) (e : Event) : (s.record e).trace = s.trace ++ [e] := rfl
@[simp] theorem State.record_wire (s : State) (e : Event) : (s.record e).wire = s.wire := rfl
@[simp] theorem State.record_now (s : State) (e : Event) : (s.record e).now = s.now := rfl
@[simp] theorem State.record_agenda (s : State) (e : Event) : (s.record e).agenda = s.agenda := rfl
@[simp] theorem State.record_moveCount (s : State) (e : Event) : (s.record e).moveCount = s.moveCount := rfl

@[simp] theorem State.raise_cfg (s : State) (e : Err) : (s.raise e).cfg = s.cfg := rfl
@[simp] theorem State.raise_fb (s : State) (e : Err) : (s.raise e).fb = s.fb := rfl
@[simp] theorem State.raise_seq (s : State) (e : Err) : (s.raise e).seq = s.seq := rfl
@[simp] theorem State.raise_rx (s : State) (e : Err) : (s.raise e).rx = s.rx := rfl
@[simp] theorem State.raise_tx (s : State) (e : Err) : (s.raise e).tx = s.tx := rfl
@[simp] theorem State.raise_trace (s : State) (e : Err) : (s.raise e).trace = s.trace ++ [.err e.code e.info] := rfl
@[simp] theorem State.raise_wire (s : State) (e : Err) : (s.raise e).wire = s.wire := rfl
@[simp] theorem State.raise_now (s : State) (e : Err) : (s.raise e).now = s.now := rfl
@[simp] theorem State.raise_agenda (s : State) (e : Err) : (s.raise e).agenda = s.agenda := rfl
@[simp] theorem State.raise_moveCount (s : State) (e : Err) : (s.raise e).moveCount = s.moveCount := rfl

@[simp] theorem State.advance_cfg (s : State) : s.advance.cfg = s.cfg := rfl
@[simp] theorem State.advance_fb (s : State) : s.advance.fb = s.fb := rfl
@[simp] theorem State.advance_seq (s : State) : s.advance.seq = { s.seq with pc := s.seq.pc + 1 } := rfl
@[simp] theorem State.advance_rx (s : State) : s.advance.rx = s.rx := rfl
@[simp] theorem State.advance_tx (s : State) : s.advance.tx = s.tx := rfl
@[simp] theorem State.advance_trace (s : State) : s.advance.trace = s.trace := rfl
@[simp] theorem State.advance_wire (s : State) : s.advance.wire = s.wire := rfl
@[simp] theorem State.advance_now (s : State) : s.advance.now = s.now := rfl
@[simp] theorem State.advance_agenda (s : State) : s.advance.agenda = s.agenda := rfl
@[simp] theorem State.advance_moveCount (s : State) : s.advance.moveCount = s.moveCount := rfl

@[simp] theorem State.holdFor_cfg (s : State) (h : SeqHold) : (s.holdFor h).cfg = s.cfg := rfl
@[simp] theorem State.holdFor_fb (s : State) (h : SeqHold) : (s.holdFor h).fb = s.fb := rfl
@[simp] theorem State.holdFor_seq (s : State) (h : SeqHold) : (s.holdFor h).seq = { s.seq with hold := h } := rfl
@[simp] theorem State.holdFor_rx (s : State) (h : SeqHold) : (s.holdFor h).rx = s.rx := rfl
@[simp] theorem State.holdFor_tx (s : State) (h : SeqHold) : (s.holdFor h).tx = s.tx := rfl
@[simp] theorem State.holdFor_trace (s : State) (h : SeqHold) : (s.holdFor h).trace = s.trace := rfl
@[simp] theorem State.holdFor_wire (s : State) (h : SeqHold) : (s.holdFor h).wire = s.wire := rfl
@[simp] theorem State.holdFor_now (s : State) (h : SeqHold) : (s.holdFor h).now = s.now := rfl
@[simp] theorem State.holdFor_agenda (s : State) (h : SeqHold) : (s.holdFor h).agenda = s.agenda := rfl
@[simp] theorem State.holdFor_moveCount (s : State) (h : SeqHold) : (s.holdFor h).moveCount = s.moveCount := rfl

@[simp] theorem State.returns_cfg (s : State) (r : OpResult) : (s.returns r).cfg = s.cfg := rfl
@[simp] theorem State.returns_fb (s : State) (r : OpResult) : (s.returns r).fb = s.fb := rfl
@[simp] theorem State.returns_seq (s : State) (r : OpResult) : (s.returns r).seq = { s.seq with result := r } := rfl
@[simp] theorem State.returns_rx (s : State) (r : OpResult) : (s.returns r).rx = s.rx := rfl
@[simp] theorem State.returns_tx (s : State) (r : OpResult) : (s.returns r).tx = s.tx := rfl
@[simp] theorem State.returns_trace (s : State) (r : OpResult) : (s.returns r).trace = s.trace := rfl
@[simp] theorem State.returns_wire (s : State) (r : OpResult) : (s.returns r).wire = s.wire := rfl
@[simp] theorem State.returns_now (s : State) (r : OpResult) : (s.returns r).now = s.now := rfl
@[simp] theorem State.returns_agenda (s : State) (r : OpResult) : (s.returns r).agenda = s.agenda := rfl
@[simp] theorem State.returns_moveCount (s : State) (r : OpResult) : (s.returns r).moveCount = s.moveCount := rfl

@[simp] theorem State.goTo_cfg (s : State) (st : SeqState) : (s.goTo st).cfg = s.cfg := rfl
@[simp] theorem State.goTo_fb (s : State) (st : SeqState) : (s.goTo st).fb = s.fb := rfl
@[simp] theorem State.goTo_seq (s : State) (st : SeqState) : (s.goTo st).seq = { s.seq with state := st } := rfl
@[simp] theorem State.goTo_rx (s : State) (st : SeqState) : (s.goTo st).rx = s.rx := rfl
@[simp] theorem State.goTo_tx (s : State) (st : SeqState) : (s.goTo st).tx = s.tx := rfl
@[simp] theorem State.goTo_trace (s : State) (st : SeqState) : (s.goTo st).trace = s.trace := rfl
@[simp] theorem State.goTo_wire (s : State) (st : SeqState) : (s.goTo st).wire = s.wire := rfl
@[simp] theorem State.goTo_now (s : State) (st : SeqState) : (s.goTo st).now = s.now := rfl
@[simp] theorem State.goTo_agenda (s : State) (st : SeqState) : (s.goTo st).agenda = s.agenda := rfl
@[simp] theorem State.goTo_moveCount (s : State) (st : SeqState) : (s.goTo st).moveCount = s.moveCount := rfl

@[simp] theorem State.load_cfg (s : State) (ops : List Instr) : (s.load ops).cfg = s.cfg := rfl
@[simp] theorem State.load_fb (s : State) (ops : List Instr) : (s.load ops).fb = s.fb := rfl
@[simp] theorem State.load_seq (s : State) (ops : List Instr) : (s.load ops).seq = { s.seq with prog := ops, pc := 0, loadPending := false } :=
  rfl
@[simp] theorem State.load_rx (s : State) (ops : List Instr) : (s.load ops).rx = s.rx := rfl
@[simp] theorem State.load_tx (s : State) (ops : List Instr) : (s.load ops).tx = s.tx := rfl
@[simp] theorem State.load_trace (s : State) (ops : List Instr) : (s.load ops).trace = s.trace := rfl
@[simp] theorem State.load_wire (s : State) (ops : List Instr) : (s.load ops).wire = s.wire := rfl
@[simp] theorem State.load_now (s : State) (ops : List Instr) : (s.load ops).now = s.now := rfl
@[simp] theorem State.load_agenda (s : State) (ops : List Instr) : (s.load ops).agenda = s.agenda := rfl
@[simp] theorem State.load_moveCount (s : State) (ops : List Instr) : (s.load ops).moveCount = s.moveCount := rfl

@[simp] theorem State.handOver_cfg (s : State) (fr : List WireWord) : (s.handOver fr).cfg = s.cfg := rfl
@[simp] theorem State.handOver_fb (s : State) (fr : List WireWord) : (s.handOver fr).fb = s.fb := rfl
@[simp] theorem State.handOver_seq (s : State) (fr : List WireWord) : (s.handOver fr).seq = s.seq := rfl
@[simp] theorem State.handOver_rx (s : State) (fr : List WireWord) : (s.handOver fr).rx = s.rx := rfl
@[simp] theorem State.handOver_tx (s : State) (fr : List WireWord) : (s.handOver fr).tx = 
      { s.tx with state := .shift, frame := fr, pix := 0, bit := 23, phase := .high, phaseTime := 0, dout := .high } :=
  rfl
@[simp] theorem State.handOver_trace (s : State) (fr : List WireWord) : (s.handOver fr).trace = s.trace ++ [.frame fr] :=
  rfl
@[simp] theorem State.handOver_wire (s : State) (fr : List WireWord) : (s.handOver fr).wire = s.wire := rfl
@[simp] theorem State.handOver_now (s : State) (fr : List WireWord) : (s.handOver fr).now = s.now := rfl
@[simp] theorem State.handOver_agenda (s : State) (fr : List WireWord) : (s.handOver fr).agenda = s.agenda := rfl
@[simp] theorem State.handOver_moveCount (s : State) (fr : List WireWord) : (s.handOver fr).moveCount = s.moveCount :=
  rfl

@[simp] theorem State.endPhase_cfg (s : State) : s.endPhase.cfg = s.cfg := rfl
@[simp] theorem State.endPhase_fb (s : State) : s.endPhase.fb = s.fb := rfl
@[simp] theorem State.endPhase_seq (s : State) : s.endPhase.seq = s.seq := rfl
@[simp] theorem State.endPhase_rx (s : State) : s.endPhase.rx = s.rx := rfl
@[simp] theorem State.endPhase_tx (s : State) : s.endPhase.tx = s.tx.endPhase s.cfg.n := rfl
@[simp] theorem State.endPhase_trace (s : State) : s.endPhase.trace = s.trace := rfl
@[simp] theorem State.endPhase_wire (s : State) : s.endPhase.wire = s.wire ++ [(s.tx.phase.level, s.tx.phaseTime)] :=
  rfl
@[simp] theorem State.endPhase_now (s : State) : s.endPhase.now = s.now := rfl
@[simp] theorem State.endPhase_agenda (s : State) : s.endPhase.agenda = s.agenda := rfl
@[simp] theorem State.endPhase_moveCount (s : State) : s.endPhase.moveCount = s.moveCount := rfl

@[simp] theorem State.endLatch_cfg (s : State) : s.endLatch.cfg = s.cfg := rfl
@[simp] theorem State.endLatch_fb (s : State) : s.endLatch.fb = s.fb := rfl
@[simp] theorem State.endLatch_seq (s : State) : s.endLatch.seq = s.seq := rfl
@[simp] theorem State.endLatch_rx (s : State) : s.endLatch.rx = s.rx := rfl
@[simp] theorem State.endLatch_tx (s : State) : s.endLatch.tx = { s.tx with state := .idle } := rfl
@[simp] theorem State.endLatch_trace (s : State) : s.endLatch.trace = s.trace := rfl
@[simp] theorem State.endLatch_wire (s : State) : s.endLatch.wire = s.wire ++ [(.low, s.tx.lowTime)] := rfl
@[simp] theorem State.endLatch_now (s : State) : s.endLatch.now = s.now := rfl
@[simp] theorem State.endLatch_agenda (s : State) : s.endLatch.agenda = s.agenda := rfl
@[simp] theorem State.endLatch_moveCount (s : State) : s.endLatch.moveCount = s.moveCount := rfl

@[simp] theorem State.hwReset_cfg (s : State) : s.hwReset.cfg = s.cfg := rfl
@[simp] theorem State.hwReset_fb (s : State) : s.hwReset.fb = List.replicate s.cfg.n Pixel.black := rfl
@[simp] theorem State.hwReset_seq (s : State) : s.hwReset.seq = (State.resetWith s.cfg).seq := rfl
@[simp] theorem State.hwReset_rx (s : State) : s.hwReset.rx = (State.resetWith s.cfg).rx := rfl
@[simp] theorem State.hwReset_tx (s : State) : s.hwReset.tx = (State.resetWith s.cfg).tx := rfl
@[simp] theorem State.hwReset_trace (s : State) : s.hwReset.trace = [] := rfl
@[simp] theorem State.hwReset_wire (s : State) : s.hwReset.wire = [] := rfl
@[simp] theorem State.hwReset_now (s : State) : s.hwReset.now = s.now := rfl
@[simp] theorem State.hwReset_agenda (s : State) : s.hwReset.agenda = s.agenda := rfl
@[simp] theorem State.hwReset_moveCount (s : State) : s.hwReset.moveCount = s.moveCount := rfl

/-! Delivery: `cmd_unit` and `seq_state` in `AWAIT`, the trace in every other state, and nothing else (R263). -/

theorem State.deliver_await (s : State) (u : CmdUnit) (h : s.seq.state = .await) :
    s.deliver u = { s with seq := { s.seq with cmdUnit := u, state := .parse } } := by
  simp [State.deliver, h]

theorem State.deliver_busy (s : State) (u : CmdUnit) (h : s.seq.state ≠ .await) :
    s.deliver u = s.record (.dropped u) := by
  simp [State.deliver, h]

@[simp] theorem State.deliver_cfg (s : State) (u : CmdUnit) : (s.deliver u).cfg = s.cfg := by
  unfold State.deliver; split <;> rfl
@[simp] theorem State.deliver_fb (s : State) (u : CmdUnit) : (s.deliver u).fb = s.fb := by
  unfold State.deliver; split <;> rfl
@[simp] theorem State.deliver_rx (s : State) (u : CmdUnit) : (s.deliver u).rx = s.rx := by
  unfold State.deliver; split <;> rfl
@[simp] theorem State.deliver_tx (s : State) (u : CmdUnit) : (s.deliver u).tx = s.tx := by
  unfold State.deliver; split <;> rfl
@[simp] theorem State.deliver_wire (s : State) (u : CmdUnit) : (s.deliver u).wire = s.wire := by
  unfold State.deliver; split <;> rfl
@[simp] theorem State.deliver_now (s : State) (u : CmdUnit) : (s.deliver u).now = s.now := by
  unfold State.deliver; split <;> rfl
@[simp] theorem State.deliver_agenda (s : State) (u : CmdUnit) : (s.deliver u).agenda = s.agenda := by
  unfold State.deliver; split <;> rfl
@[simp] theorem State.deliver_moveCount (s : State) (u : CmdUnit) : (s.deliver u).moveCount = s.moveCount := by
  unfold State.deliver; split <;> rfl

/-! Real time passing. -/

@[simp] theorem State.elapse_cfg (s : State) (dt : Rat) : (s.elapse dt).cfg = s.cfg := by
  unfold State.elapse; split <;> rfl
@[simp] theorem State.elapse_fb (s : State) (dt : Rat) : (s.elapse dt).fb = s.fb := by
  unfold State.elapse; split <;> rfl
@[simp] theorem State.elapse_seq (s : State) (dt : Rat) : (s.elapse dt).seq = s.seq := by
  unfold State.elapse; split <;> rfl
@[simp] theorem State.elapse_rx (s : State) (dt : Rat) : (s.elapse dt).rx = s.rx := by
  unfold State.elapse; split <;> rfl
@[simp] theorem State.elapse_trace (s : State) (dt : Rat) : (s.elapse dt).trace = s.trace := by
  unfold State.elapse; split <;> rfl
@[simp] theorem State.elapse_wire (s : State) (dt : Rat) : (s.elapse dt).wire = s.wire := by
  unfold State.elapse; split <;> rfl
@[simp] theorem State.elapse_agenda (s : State) (dt : Rat) : (s.elapse dt).agenda = s.agenda := by
  unfold State.elapse; split <;> rfl
@[simp] theorem State.elapse_moveCount (s : State) (dt : Rat) : (s.elapse dt).moveCount = s.moveCount := by
  unfold State.elapse; split <;> rfl
@[simp] theorem State.elapse_now (s : State) (dt : Rat) : (s.elapse dt).now = s.now + dt := by
  unfold State.elapse; split <;> rfl

/-! Taking up a move. -/

@[simp] theorem State.popMove_cfg (s : State) : s.popMove.cfg = s.cfg := by
  unfold State.popMove; split <;> rfl
@[simp] theorem State.popMove_fb (s : State) : s.popMove.fb = s.fb := by
  unfold State.popMove; split <;> rfl
@[simp] theorem State.popMove_seq (s : State) : s.popMove.seq = s.seq := by
  unfold State.popMove; split <;> rfl
@[simp] theorem State.popMove_rx (s : State) : s.popMove.rx = s.rx := by
  unfold State.popMove; split <;> rfl
@[simp] theorem State.popMove_tx (s : State) : s.popMove.tx = s.tx := by
  unfold State.popMove; split <;> rfl
@[simp] theorem State.popMove_trace (s : State) : s.popMove.trace = s.trace := by
  unfold State.popMove; split <;> rfl
@[simp] theorem State.popMove_wire (s : State) : s.popMove.wire = s.wire := by
  unfold State.popMove; split <;> rfl
@[simp] theorem State.popMove_now (s : State) : s.popMove.now = s.now := by
  unfold State.popMove; split <;> rfl

theorem State.nextMove_cons (s : State) (m : Move) (ms : List Move) (h : s.agenda = m :: ms) : s.nextMove = m := by
  simp [State.nextMove, h]

theorem State.popMove_cons (s : State) (m : Move) (ms : List Move) (h : s.agenda = m :: ms) :
    s.popMove = { s with agenda := ms } := by
  simp [State.popMove, h]

end Sys2Proof.Machine
end

