-- ==== Sys2Proof/Laws/Config.lean ====
section
/-! SUPPORT. Validity of a configuration in the spec's own terms (spec/00_scope.md R8 to R17). -/

namespace Sys2Proof

theorem ratLt_iff (a b : Rat) : ratLt a b = true ↔ a < b := by
  simp [ratLt, Rat.lt_iff]

theorem ratLe_iff (a b : Rat) : ratLe a b = true ↔ a ≤ b := by
  simp [ratLe, Rat.le_iff]

theorem ratLtHalf_iff (a b : Rat) : ratLtHalf a b = true ↔ a < b / 2 := by
  have ha : (0 : Rat) < a.den := by exact_mod_cast a.den_pos
  have hb : (0 : Rat) < b.den := by exact_mod_cast b.den_pos
  rw [ratLtHalf, decide_eq_true_iff]
  conv_rhs => rw [← Rat.num_div_den a, ← Rat.num_div_den b, div_div, div_lt_div_iff₀ ha (by positivity)]
  exact_mod_cast Iff.rfl

theorem ratHalfLt_iff (b a : Rat) : ratHalfLt b a = true ↔ b / 2 < a := by
  have ha : (0 : Rat) < a.den := by exact_mod_cast a.den_pos
  have hb : (0 : Rat) < b.den := by exact_mod_cast b.den_pos
  rw [ratHalfLt, decide_eq_true_iff]
  conv_rhs => rw [← Rat.num_div_den a, ← Rat.num_div_den b, div_div, div_lt_div_iff₀ (by positivity) ha]
  exact_mod_cast Iff.rfl

theorem mkRat_tenth : mkRat 1 10 = 1 / 10 := by norm_num [Rat.mkRat_eq_div]

theorem mkRat_hundredth : mkRat 1 100 = 1 / 100 := by norm_num [Rat.mkRat_eq_div]

theorem Config.shapeValid_iff (c : Config) : c.shapeValid = true ↔
    1 ≤ c.n ∧ 0 ≤ c.b ∧ c.b ≤ c.n ∧ c.sections.sum ≤ c.n ∧ c.palette.length = 10 ∧
      ∀ p ∈ c.bootSequence, p.wf = true := by
  simp [Config.shapeValid, and_assoc]

theorem Config.wireValid_iff (c : Config) : c.wireValid = true ↔
    0 < c.t0h ∧ c.t0h < c.tBit / 2 ∧ c.tBit / 2 < c.t1h ∧ c.t1h < c.tBit ∧ 0 < c.tLatch ∧
      0 ≤ c.jitter ∧ c.jitter < 1 / 10 := by
  simp only [Config.wireValid, Bool.and_eq_true, ratLt_iff, ratLe_iff, ratLtHalf_iff, ratHalfLt_iff, and_assoc,
    mkRat_tenth]

theorem Config.delayValid_iff (c : Config) : c.delayValid = true ↔
    1 / 100 ≤ c.tChase ∧ c.tChase < 1 / 10 ∧ 0 < c.tSection ∧ 0 ≤ c.tRainbow := by
  simp only [Config.delayValid, Bool.and_eq_true, ratLt_iff, ratLe_iff, and_assoc, mkRat_tenth, mkRat_hundredth]

theorem Config.valid_iff (c : Config) :
    c.valid = true ↔ c.shapeValid = true ∧ c.wireValid = true ∧ c.delayValid = true := by
  simp [Config.valid, and_assoc]

/-- Under a valid configuration the palette has every colour index in [0, 9]. -/
theorem Config.valid_paletteHas (cfg : Config) (h : cfg.valid = true) (c : Nat) (hc : c ≤ 9) :
    cfg.paletteHas c = true := by
  have := ((cfg.shapeValid_iff).1 ((cfg.valid_iff).1 h).1).2.2.2.2.1
  simp [Config.paletteHas, this]; omega

theorem Config.inRange_iff (cfg : Config) (p : Int) : cfg.inRange p = true ↔ 0 ≤ p ∧ p ≤ (cfg.n : Int) - 1 := by
  simp [Config.inRange]

/-- `mirror` maps [0, N-1] onto itself (R21, R226). -/
theorem Config.inRange_mirror (cfg : Config) (p : Int) : cfg.inRange (cfg.mirror p) = cfg.inRange p := by
  rw [Bool.eq_iff_iff, Config.inRange_iff, Config.inRange_iff, Config.mirror]; omega

end Sys2Proof
end

