-- ==== Sys2Proof/Laws/Memory.lean ====
section
/-! SUPPORT. The framebuffer: read after write, and that every operation over it keeps its canonical form (R32, R33). -/

namespace Sys2Proof.Machine

theorem Memory.wf_iff (n : Nat) (m : Memory) : Memory.wf n m = true ↔ m.length = n := by
  simp [Memory.wf]

theorem readFB_writeFB_same (s : State) (k : Nat) (px : Pixel) (h : k < s.fb.length) :
    (s.writeFB k px).readFB k = some px := by
  simp [State.readFB, h]

theorem readFB_writeFB_other (s : State) (k q : Nat) (px : Pixel) (h : q ≠ k) :
    (s.writeFB k px).readFB q = s.readFB q := by
  simp [State.readFB, List.getElem?_set_ne h.symm]

theorem readFB_fillFB (s : State) (px : Pixel) (q : Nat) (h : q < s.cfg.n) : (s.fillFB px).readFB q = some px := by
  simp [State.readFB, h]

/-- A read in range answers a pixel. -/
theorem readFB_inRange (s : State) (h : Memory.wf s.cfg.n s.fb = true) (k : Nat) (hk : k < s.cfg.n) :
    ∃ px, s.readFB k = some px := by
  rw [Memory.wf_iff] at h
  exact ⟨s.fb[k]'(by omega), by simp [State.readFB, h, hk]⟩

theorem writeFB_wf (s : State) (k : Nat) (px : Pixel) (h : Memory.wf s.cfg.n s.fb = true) :
    Memory.wf (s.writeFB k px).cfg.n (s.writeFB k px).fb = true := by
  simpa [Memory.wf] using h

theorem fillFB_wf (s : State) (px : Pixel) : Memory.wf (s.fillFB px).cfg.n (s.fillFB px).fb = true := by
  simp [Memory.wf]

theorem hwReset_wf (s : State) : Memory.wf s.hwReset.cfg.n s.hwReset.fb = true := by
  simp [Memory.wf]

theorem reset_wf (cfg : Config) : Memory.wf (State.resetWith cfg).cfg.n (State.resetWith cfg).fb = true := by
  simp [Memory.wf, State.resetWith]

theorem frameOf_length (cfg : Config) (fb : Memory) : (frameOf cfg fb).length = cfg.n := by
  simp [frameOf]

end Sys2Proof.Machine
end

