-- ==== Sys2Proof/Laws/Ops.lean ====
section
/-! SUPPORT. For each meaning and each agent's step, once, everything it can do. -/

namespace Sys2Proof.Machine

theorem execSet_cases (p : Int) (px : Pixel) (s : State) :
    (s.cfg.inRange p = true ∧ execSet p px s = .next (s.writeFB p.toNat px).advance) ∨
    (s.cfg.inRange p = false ∧ execSet p px s = .next (s.raise (.boundaryOverrun p)).advance) := by
  cases h : s.cfg.inRange p <;> simp [execSet, h]

theorem execGet_cases (k : Int) (s : State) :
    (∃ px, s.cfg.inRange k = true ∧ s.readFB k.toNat = some px ∧
      execGet k s = .next (s.returns (.pixel px)).advance) ∨
    ((s.cfg.inRange k = false ∨ s.readFB k.toNat = none) ∧ execGet k s = .refused (.getOutOfRange k)) := by
  unfold execGet
  cases h : s.cfg.inRange k
  · exact .inr ⟨.inl rfl, rfl⟩
  · cases hr : s.readFB k.toNat with
    | none => exact .inr ⟨.inr rfl, rfl⟩
    | some px => exact .inl ⟨px, rfl, rfl, rfl⟩

theorem txBusy_iff (s : State) : s.txBusy = true ↔ s.tx.state ≠ .idle := by
  simp [State.txBusy]

theorem execTransmit_cases (fr : List WireWord) (s : State) :
    (s.tx.state = .idle ∧ execTransmit fr s = .next ((s.holdFor .none).handOver fr).advance) ∨
    (s.tx.state ≠ .idle ∧ execTransmit fr s = .next (s.holdFor .txBusy)) := by
  by_cases h : s.tx.state = .idle <;> simp [execTransmit, State.txBusy, h]

theorem execDelay_cases (t : Rat) (s : State) :
    ((delayHold t s).1 + (delayHold t s).2 ≤ s.now ∧ execDelay t s = .next (s.holdFor .none).advance) ∨
    (s.now < (delayHold t s).1 + (delayHold t s).2 ∧
      execDelay t s = .next (s.holdFor (.delay (delayHold t s).1 (delayHold t s).2))) := by
  unfold execDelay
  by_cases h : (delayHold t s).1 + (delayHold t s).2 ≤ s.now
  · simp [h]
  · simp [h, lt_of_not_ge h]

theorem playPattern_cases (p : Pattern) (s : State) :
    ((∀ c, p.colour? = some c → s.cfg.paletteHas c = true) ∧ playPattern p s = .next (s.load (s.cfg.expand p))) ∨
    (∃ c, p.colour? = some c ∧ s.cfg.paletteHas c = false ∧ playPattern p s = .refused (.paletteIndex c)) := by
  unfold playPattern
  cases hp : p.colour? with
  | none => simp
  | some c => cases h : s.cfg.paletteHas c <;> simp [h]

/-- The pattern a command plays (R270, R272, R273). -/
theorem execCmdDirA_eq (c : Nat) (s : State) :
    execCmdDirA c s = playPattern (if s.cfg.chaseMode = .pair then .chaseA c else .sectionFwd c) s := by
  unfold execCmdDirA; cases s.cfg.chaseMode <;> rfl

theorem execCmdDirB_eq (d c : Nat) (s : State) :
    execCmdDirB d c s = playPattern (if s.cfg.chaseMode = .pair then .chaseB c else .sectionRev c) s := by
  unfold execCmdDirB; cases s.cfg.chaseMode <;> rfl

theorem rxLine_cases (b : Byte) (s : State) :
    (b = lineFeed ∧ rxLine b s =
      { s.deliver (completeLine s.rx.buf s.rx.ovf) with rx := { s.rx with buf := [], ovf := false } }) ∨
    (b ≠ lineFeed ∧ s.rx.buf.length < 3 ∧ rxLine b s = { s with rx := { s.rx with buf := s.rx.buf ++ [b] } }) ∨
    (b ≠ lineFeed ∧ ¬ s.rx.buf.length < 3 ∧ rxLine b s = { s with rx := { s.rx with ovf := true } }) := by
  unfold rxLine
  by_cases hb : b = lineFeed
  · exact .inl ⟨hb, by rw [if_pos hb]⟩
  · by_cases hl : s.rx.buf.length < 3
    · exact .inr (.inl ⟨hb, hl, by rw [if_neg hb, if_pos hl]⟩)
    · exact .inr (.inr ⟨hb, hl, by rw [if_neg hb, if_neg hl]⟩)

theorem rxFixed2_cases (b : Byte) (s : State) :
    (s.rx.have_ = true ∧ rxFixed2 b s = { s.deliver (.bytes [s.rx.hold, b]) with rx := { s.rx with have_ := false } }) ∨
    (s.rx.have_ = false ∧ rxFixed2 b s = { s with rx := { s.rx with hold := b, have_ := true } }) := by
  unfold rxFixed2
  cases s.rx.have_ <;> simp

theorem validateStep_cases (s : State) :
    (∃ r, validate s.seq.cmdUnit s.seq.cmd = some r ∧ validateStep s = (s.raise (rejectErr r)).goTo .await) ∨
    (validate s.seq.cmdUnit s.seq.cmd = none ∧
      validateStep s = { s with seq := { s.seq with state := .dispatch, loadPending := true } }) := by
  unfold validateStep
  cases validate s.seq.cmdUnit s.seq.cmd with
  | none => exact .inr ⟨rfl, rfl⟩
  | some r => exact .inl ⟨r, rfl, rfl⟩

/-- Everything TX's step can do (R182, R183, R186, R187). -/
theorem txStep_cases (s : State) :
    (s.tx.state = .idle ∧ txStep s = .next s) ∨
    (s.tx.state = .latch ∧ s.cfg.tLatch ≤ s.tx.lowTime ∧ txStep s = .next s.endLatch) ∨
    (s.tx.state = .latch ∧ ¬ s.cfg.tLatch ≤ s.tx.lowTime ∧ txStep s = .next s) ∨
    (s.tx.state = .shift ∧ s.tx.currentBit? = none ∧ txStep s = .fault (.frameWord s.tx.pix)) ∨
    (∃ x, s.tx.state = .shift ∧ s.tx.currentBit? = some x ∧ phaseMayEnd s.cfg x s.tx = true ∧
      txStep s = .next s.endPhase) ∨
    (∃ x, s.tx.state = .shift ∧ s.tx.currentBit? = some x ∧ phaseMayEnd s.cfg x s.tx = false ∧
      txStep s = .next s) := by
  unfold txStep
  cases h : s.tx.state with
  | idle => simp
  | latch => by_cases hl : s.cfg.tLatch ≤ s.tx.lowTime <;> simp [hl]
  | shift =>
    cases hb : s.tx.currentBit? with
    | none => simp
    | some x => cases hp : phaseMayEnd s.cfg x s.tx <;> simp [hp]

/-- Everything the passing of time can do (R184, R185, R350). -/
theorem passTime_cases (dt : Rat) (s : State) :
    (passTime dt s = .next s) ∨
    (0 ≤ dt ∧ s.tx.state ≠ .shift ∧ passTime dt s = .next (s.elapse dt)) ∨
    (∃ x, 0 ≤ dt ∧ s.tx.state = .shift ∧ s.tx.currentBit? = some x ∧
      s.tx.phaseTime + dt ≤ longest s.cfg x s.tx.phase ∧ passTime dt s = .next (s.elapse dt)) ∨
    (s.tx.state = .shift ∧ s.tx.currentBit? = none ∧ passTime dt s = .fault (.frameWord s.tx.pix)) := by
  unfold passTime
  cases h : s.tx.state with
  | idle => by_cases hd : 0 ≤ dt <;> simp [hd]
  | latch => by_cases hd : 0 ≤ dt <;> simp [hd]
  | shift =>
    cases hb : s.tx.currentBit? with
    | none => simp
    | some x =>
      by_cases hd : 0 ≤ dt ∧ s.tx.phaseTime + dt ≤ longest s.cfg x s.tx.phase
      · simp [hd]
      · simp [hd]

/-- The end of a phase: the low phase, the latch gap, the next bit of the word or the next word (R182, R183). -/
theorem Tx.endPhase_cases (n : Nat) (t : Tx) :
    (t.phase = .high ∧ t.endPhase n = { t with dout := .low, phase := .low, phaseTime := 0 }) ∨
    (t.phase = .low ∧ t.pix + 1 = n ∧ t.bit = 0 ∧
      t.endPhase n = { t with state := .latch, lowTime := 0, phaseTime := 0 }) ∨
    (t.phase = .low ∧ 0 < t.bit ∧
      t.endPhase n = { t with bit := t.bit - 1, phase := .high, phaseTime := 0, dout := .high }) ∨
    (t.phase = .low ∧ t.pix + 1 ≠ n ∧ t.bit = 0 ∧
      t.endPhase n = { t with pix := t.pix + 1, bit := 23, phase := .high, phaseTime := 0, dout := .high }) := by
  unfold Tx.endPhase
  cases hp : t.phase with
  | high => simp [Tx.endHigh]
  | low =>
    rcases Nat.eq_zero_or_pos t.bit with hb | hb
    · by_cases hn : t.pix + 1 = n <;> simp [Tx.endLow, hp, hb, hn]
    · simp [Tx.endLow, hb, Nat.ne_of_gt hb]

end Sys2Proof.Machine
end

