-- ==== Sys2Proof/Laws/Step.lean ====
section
/-! SUPPORT. What one step and a run of moves are: the lemmas a proof cites instead of unfolding them. -/

namespace Sys2Proof.Machine

@[simp] theorem andThen_next {σ τ φ ρ : Type} (s : σ) (f : σ → Host.Outcome τ φ ρ) :
    andThen (.next s) f = f s := rfl

theorem andThen_eq_next {σ τ φ ρ : Type} (o : Host.Outcome σ φ ρ) (f : σ → Host.Outcome τ φ ρ) (t : τ) :
    andThen o f = .next t ↔ ∃ s, o = .next s ∧ f s = .next t := by
  cases o <;> simp [andThen]

@[simp] theorem runMoves_nil (s : State) : runMoves [] s = .next s := rfl

@[simp] theorem runMoves_cons (m : Move) (ms : List Move) (s : State) :
    runMoves (m :: ms) s = andThen (act m s) (runMoves ms) := rfl

theorem runMoves_append (ms ms' : List Move) (s : State) :
    runMoves (ms ++ ms') s = andThen (runMoves ms s) (runMoves ms') := by
  induction ms generalizing s with
  | nil => rfl
  | cons m ms ih =>
    simp only [List.cons_append, runMoves_cons]
    cases act m s with
    | next t => exact ih t
    | fault r => rfl
    | refused r => rfl

@[simp] theorem runOps_nil (s : State) : runOps [] s = .next s := rfl

@[simp] theorem runOps_cons (i : Instr) (is : List Instr) (s : State) :
    runOps (i :: is) s = andThen (exec i s) (runOps is) := rfl

theorem step_of_valid (s : State) (h : s.cfg.valid = true) : step s = act s.nextMove s.popMove := by
  simp [step, h]

theorem step_of_invalid (s : State) (h : s.cfg.valid = false) : step s = .refused .invalidConfig := by
  simp [step, h]

/-- A step that answers a next state is its move's. -/
theorem step_next (s t : State) (h : step s = .next t) :
    s.cfg.valid = true ∧ act s.nextMove s.popMove = .next t := by
  cases hv : s.cfg.valid with
  | false => simp [step_of_invalid s hv] at h
  | true => exact ⟨rfl, (step_of_valid s hv).symm.trans h⟩

theorem rxByte_line (b : Byte) (s : State) (h : s.cfg.unitMode = .line) : rxByte b s = rxLine b s := by
  simp [rxByte, h]

theorem rxByte_fixed2 (b : Byte) (s : State) (h : s.cfg.unitMode = .fixed2) : rxByte b s = rxFixed2 b s := by
  simp [rxByte, h]

/-- SEQ's step, state by state (R212, R264 to R274, R345). -/
theorem seqStep_boot (s : State) (h : s.seq.state = .boot) : seqStep s = runStep s := by simp [seqStep, h]

theorem seqStep_await (s : State) (h : s.seq.state = .await) : seqStep s = .next s := by simp [seqStep, h]

theorem seqStep_parse (s : State) (h : s.seq.state = .parse) : seqStep s = .next (parseStep s) := by
  simp [seqStep, h]

theorem seqStep_validate (s : State) (h : s.seq.state = .validate) : seqStep s = .next (validateStep s) := by
  simp [seqStep, h]

theorem seqStep_load (s : State) (h : s.seq.state = .dispatch) (hp : s.seq.loadPending = true) :
    seqStep s = loadStep s := by
  simp [seqStep, h, hp]

theorem seqStep_run (s : State) (h : s.seq.state = .dispatch) (hp : s.seq.loadPending = false) :
    seqStep s = runStep s := by
  simp [seqStep, h, hp]

theorem running_iff (s : State) :
    s.running = true ↔ s.seq.state = .boot ∨ (s.seq.state = .dispatch ∧ s.seq.loadPending = false) := by
  simp [State.running]

/-- A running program's step is `runStep`. -/
theorem seqStep_running (s : State) (h : s.running = true) : seqStep s = runStep s := by
  rcases (running_iff s).1 h with hb | ⟨hd, hp⟩
  · exact seqStep_boot s hb
  · exact seqStep_run s hd hp

theorem runStep_some (s : State) (i : Instr) (h : s.seq.prog[s.seq.pc]? = some i) : runStep s = exec i s := by
  simp [runStep, h]

theorem runStep_none (s : State) (h : s.seq.prog[s.seq.pc]? = none) : runStep s = .next (s.goTo .await) := by
  simp [runStep, h]

theorem loadStep_some (s : State) (i : Instr) (h : s.seq.cmd.instr? = some i) : loadStep s = exec i s := by
  simp [loadStep, h]

/-! ## Fair runs -/

theorem sameButAgenda_popMove (s : State) : SameButAgenda s s.popMove := by
  unfold SameButAgenda State.popMove
  cases s.agenda <;> rfl

/-- A run of the machine's steps makes the moves its states choose. -/
theorem isRun_of_steps (r : Nat → State) (h : ∀ k, step (r k) = .next (r (k + 1))) :
    IsRun (fun k => (r k).nextMove) r :=
  fun k => ⟨(r k).popMove, sameButAgenda_popMove _, (step_next _ _ (h k)).2⟩

/-- A step TX cannot take changes nothing. -/
theorem txStep_not_enabled (s : State) (h : s.txEnabled = false) :
    txStep s = .next s ∨ ∃ p, txStep s = .fault (.frameWord p) := by
  unfold State.txEnabled at h
  rcases txStep_cases s with ⟨_, e⟩ | ⟨hs, hl, _⟩ | ⟨_, _, e⟩ | ⟨_, _, e⟩ | ⟨x, hs, hx, hp, _⟩ | ⟨_, _, _, _, e⟩
  · exact .inl e
  · simp [hs, hl] at h
  · exact .inl e
  · exact .inr ⟨_, e⟩
  · simp [hs, hx, hp] at h
  · exact .inl e

/-- A step SEQ cannot take changes nothing, where a hold is the hold of the micro-operation at `pc`. -/
theorem seqStep_not_enabled (s : State) (hh : HoldOk s) (h : s.seqEnabled = false) : seqStep s = .next s := by
  by_cases ha : s.seq.state = .await
  · exact seqStep_await s ha
  have hb : s.seqBusy = true := by simp [State.seqBusy, ha]
  have hr : s.running = true ∧ s.holdLifted = false := by simpa [State.seqEnabled, hb] using h
  rw [seqStep_running s hr.1]
  unfold HoldOk at hh
  have hl := hr.2
  unfold State.holdLifted at hl
  cases hd : s.seq.hold with
  | none => simp [hd] at hl
  | txBusy =>
    rw [hd] at hh hl
    rw [runStep_some s _ hh.2]
    rcases execTransmit_cases (frameOf s.cfg s.fb) s with ⟨hi, _⟩ | ⟨_, e⟩
    · simp [State.txBusy, hi] at hl
    · exact e.trans (by simp [State.holdFor, ← hd])
  | delay t0 t =>
    rw [hd] at hh hl
    rw [runStep_some s _ hh.2.1]
    rcases execDelay_cases t s with ⟨hle, _⟩ | ⟨_, e⟩
    · simp [delayHold, hd] at hle
      simp at hl
      exact absurd hle (not_le_of_gt hl)
    · have hdh : delayHold t s = (t0, t) := by simp [delayHold, hd]
      exact e.trans (by rw [hdh]; simp [State.holdFor, ← hd])

end Sys2Proof.Machine
end

