-- ==== Sys2Proof/Laws/PerInstr.lean ====
section
/-! SUPPORT. Facts about every instruction as syntax, one lemma per constructor. -/

namespace Sys2Proof.Laws.EncodedLength

/-- An encoded instruction is one payload byte or two, never a line feed: RX's buffer holds it with a carriage return to
spare (R42, R100 to R103). -/
def Statement (i : Instr) : Prop := ∀ cfg bs, i.wf cfg = true → encode i = some bs → 1 ≤ bs.length ∧ bs.length ≤ 2 ∧ lineFeed ∉ bs

/-- A digit's byte is no line feed. -/
theorem digitByte_ne_lineFeed (c : Nat) (h : c ≤ 9) : lineFeed ≠ digitByte c := by
  intro e
  have := congrArg BitVec.toNat e
  simp [lineFeed, digitByte] at this
  omega

theorem cmdFill (c : Nat) : Statement (.cmdFill c) := by
  intro cfg bs h e
  have hc : c ≤ 9 := by simp [Instr.wf] at h; omega
  have := digitByte_ne_lineFeed c hc
  have := digitByte_ne_lineFeed 0 (by omega)
  simp only [encode, Option.some.injEq] at e
  subst e
  simp_all

theorem cmdDirA (c : Nat) : Statement (.cmdDirA c) := by
  intro cfg bs h e
  have hc : c ≤ 9 := by simp [Instr.wf] at h; omega
  have := digitByte_ne_lineFeed c hc
  have := digitByte_ne_lineFeed 0 (by omega)
  simp only [encode, Option.some.injEq] at e
  subst e
  simp_all

theorem cmdDirB (d c : Nat) : Statement (.cmdDirB d c) := by
  intro cfg bs h e
  have hc : d ≤ 9 ∧ c ≤ 9 := by simp [Instr.wf] at h; omega
  have := digitByte_ne_lineFeed d hc.1
  have := digitByte_ne_lineFeed c hc.2
  simp only [encode, Option.some.injEq] at e
  subst e
  simp_all

theorem set (p : Int) (px : Pixel) : Statement (.set p px) := by
  intro cfg bs _ e; simp [encode] at e

theorem fill (px : Pixel) : Statement (.fill px) := by
  intro cfg bs _ e; simp [encode] at e

theorem get (k : Int) : Statement (.get k) := by
  intro cfg bs _ e; simp [encode] at e

theorem scale : Statement .scale := by
  intro cfg bs _ e; simp [encode] at e

theorem transmit (fr : List WireWord) : Statement (.transmit fr) := by
  intro cfg bs _ e; simp [encode] at e

theorem render : Statement .render := by
  intro cfg bs _ e; simp [encode] at e

theorem delay (t : Rat) : Statement (.delay t) := by
  intro cfg bs _ e; simp [encode] at e

theorem fillBounce (c : Nat) : Statement (.fillBounce c) := by
  intro cfg bs _ e; simp [encode] at e

theorem chaseA (c : Nat) : Statement (.chaseA c) := by
  intro cfg bs _ e; simp [encode] at e

theorem chaseB (c : Nat) : Statement (.chaseB c) := by
  intro cfg bs _ e; simp [encode] at e

theorem sectionFwd (c : Nat) : Statement (.sectionFwd c) := by
  intro cfg bs _ e; simp [encode] at e

theorem sectionRev (c : Nat) : Statement (.sectionRev c) := by
  intro cfg bs _ e; simp [encode] at e

theorem rainbow : Statement .rainbow := by
  intro cfg bs _ e; simp [encode] at e

end Sys2Proof.Laws.EncodedLength
end

