-- ==== Sys2Proof/Certificates/Slice0/Obligations.lean ====
section
/-! DEFINITION. The statements for the provers, from the numbered rules of spec/. -/

open Sys2Proof Sys2Proof.Machine

/-! ## Reset and configuration -/

/-- R340, for the state reset leaves under any configuration and for an external reset in any state (R341): every element
holds the value the table gives it. The elements the table leaves unspecified are not in it. -/
def Obligations.ResetLeavesTheTable : Prop :=
  ∀ s t : State, (t = State.resetWith s.cfg ∨ act .reset s = .next t) →
    t.cfg = s.cfg ∧ t.fb.length = s.cfg.n ∧ (∀ k, k < s.cfg.n → t.readFB k = some ⟨0, 0, 0⟩) ∧
    t.seq.state = .boot ∧ t.seq.prog = s.cfg.bootSequence.flatMap s.cfg.expand ∧ t.seq.pc = 0 ∧ t.seq.hold = .none ∧
    t.rx.buf = [] ∧ t.rx.ovf = false ∧ t.rx.have_ = false ∧
    t.tx.state = .latch ∧ t.tx.lowTime = 0 ∧ t.tx.dout = .low ∧ t.trace = []

/-- R8 to R11, R14, R15, R17, R343: which configurations are valid; R17, R320: under any other no step has a run. -/
def Obligations.InvalidConfigurationIsRefused : Prop :=
  (∀ c : Config, c.valid = true ↔
    (1 ≤ c.n ∧ 0 ≤ c.b ∧ c.b ≤ (c.n : Int) ∧ c.sections.sum ≤ c.n ∧ c.palette.length = 10 ∧
      ∀ p ∈ c.bootSequence, ∀ k, p.colour? = some k → k ≤ 9) ∧
    (0 < c.t0h ∧ c.t0h < c.tBit / 2 ∧ c.tBit / 2 < c.t1h ∧ c.t1h < c.tBit ∧ 0 < c.tLatch ∧
      0 ≤ c.jitter ∧ c.jitter < 1 / 10) ∧
    1 / 100 ≤ c.tChase ∧ c.tChase < 1 / 10 ∧ 0 < c.tSection ∧ 0 ≤ c.tRainbow) ∧
  ∀ s : State, s.cfg.valid = false → step s = .refused .invalidConfig

/-- R36: no step writes the configuration, whatever the move. -/
def Obligations.ConfigurationIsNeverWritten : Prop :=
  ∀ s t : State, step s = .next t → t.cfg = s.cfg

/-! ## Encoding -/

/-- Words written out from R101, R102, R105 and the vectors V-C1 to V-C3. -/
def Obligations.WrittenWordsDecode : Prop :=
  decode .line (.bytes [0x32#8]) = .ok (.cmdFill 2) ∧
  decode .line (.bytes [0x30#8, 0x35#8]) = .ok (.cmdDirA 5) ∧
  decode .fixed2 (.bytes [0x39#8, 0x35#8]) = .ok (.cmdDirB 9 5) ∧
  decodeTableWord 8 0x37 = some (.cmdFill 7) ∧
  decodeTableWord 16 0x3035 = some (.cmdDirA 5) ∧
  decodeTableWord 16 0x3139 = some (.cmdDirB 1 9) ∧
  decodeTableWord 16 0x3A35 = none

/-- R101, R102, R105, R106: decoding the payload bytes of a well-formed command gives the command back, with every operand
at every value, in every unit mode that has its format. -/
def Obligations.DecodeOfEncodeIsTheCommand : Prop :=
  ∀ (cfg : Config) (i : Instr) (bs : List Byte), i.wf cfg = true → encode i = some bs →
    decode cfg.unitMode (.bytes bs) = .ok i

/-- R106, R107: a unit that decodes is the payload of the instruction it decodes to: each unit has one meaning. -/
def Obligations.EncodeOfDecodeIsTheUnit : Prop :=
  ∀ (mode : UnitMode) (u : CmdUnit) (i : Instr), decode mode u = .ok i → ∃ bs, encode i = some bs ∧ u = .bytes bs

/-- R106: ParseLine, Validate and the direction rule decode exactly the units that match a row of the opcode map, to that
row's command; format U1 is of `LINE` mode only. -/
def Obligations.DecodeIsTheOpcodeMap : Prop :=
  (∀ (c0 : Byte) (i : Instr), decode .line (.bytes [c0]) = .ok i ↔ opcodeMapU1 c0 = some i) ∧
  (∀ (c0 : Byte) (i : Instr), decode .fixed2 (.bytes [c0]) ≠ .ok i) ∧
  ∀ (mode : UnitMode) (c0 c1 : Byte) (i : Instr),
    decode mode (.bytes [c0, c1]) = .ok i ↔ opcodeMapU2 (c0 ++ c1 : BitVec 16) = some i

/-- R107: a `LINE` unit is malformed exactly when it overflowed, is empty, is longer than two bytes or holds a byte that is no
digit; a two-byte unit in `FIXED2` mode exactly when it holds one. Every other unit decodes. -/
def Obligations.MalformedUnitsAreThese : Prop :=
  (∀ u : CmdUnit, decode .line u = .error (.malformedCommand u) ↔
    u = .overflow ∨ ∃ bs, u = .bytes bs ∧ (bs = [] ∨ 2 < bs.length ∨ ∃ b ∈ bs, ¬ (0x30 ≤ b.toNat ∧ b.toNat ≤ 0x39))) ∧
  (∀ c0 c1 : Byte, decode .fixed2 (.bytes [c0, c1]) = .error (.malformedCommand (.bytes [c0, c1])) ↔
    ∃ b ∈ [c0, c1], ¬ (0x30 ≤ b.toNat ∧ b.toNat ≤ 0x39)) ∧
  ∀ (mode : UnitMode) (u : CmdUnit), decode mode u = .error (.malformedCommand u) ∨ ∃ i, decode mode u = .ok i

/-! ## RX -/

/-- R260, with R261 for the unit of the finished line: one byte in `LINE` mode. -/
def Obligations.LineByteStep : Prop :=
  ∀ (b : Byte) (s : State), s.cfg.unitMode = .line →
    (b = 0x0A#8 → act (.rx b) s = .next { s.deliver (if s.rx.ovf then .overflow
        else if s.rx.buf.getLast? = some 0x0D#8 then .bytes s.rx.buf.dropLast else .bytes s.rx.buf)
        with rx := { s.rx with buf := [], ovf := false } }) ∧
    (b ≠ 0x0A#8 → s.rx.buf.length < 3 → act (.rx b) s = .next { s with rx := { s.rx with buf := s.rx.buf ++ [b] } }) ∧
    (b ≠ 0x0A#8 → 3 ≤ s.rx.buf.length → act (.rx b) s = .next { s with rx := { s.rx with ovf := true } })

/-- R103, R260, R261: the bytes of a whole line, offered in any `seq_state` with RX empty, are delivered as one unit: the
payload without one trailing CR, or `Overflow` when more than three bytes precede the LF. RX is empty again. -/
def Obligations.LineIsDeliveredAsOneUnit : Prop :=
  ∀ (bs : List Byte) (s : State), s.cfg.unitMode = .line → s.rx.buf = [] → s.rx.ovf = false → (0x0A#8 : Byte) ∉ bs →
    runMoves ((bs ++ [0x0A#8]).map Move.rx) s =
      .next (s.deliver (if 3 < bs.length then .overflow
        else if bs.getLast? = some 0x0D#8 then .bytes bs.dropLast else .bytes bs))

/-- R262: one byte in `FIXED2` mode; and pairing never resynchronises. Over any moves without a reset, whatever SEQ and TX do
in them, RX holds a first byte exactly when an odd number of bytes has come since it held none, and it is the last one; so
the even byte and the odd byte after it form one unit. -/
def Obligations.Fixed2BytesPairUp : Prop :=
  (∀ (b : Byte) (s : State), s.cfg.unitMode = .fixed2 →
    (s.rx.have_ = false → act (.rx b) s = .next { s with rx := { s.rx with hold := b, have_ := true } }) ∧
    (s.rx.have_ = true →
      act (.rx b) s = .next { s.deliver (.bytes [s.rx.hold, b]) with rx := { s.rx with have_ := false } })) ∧
  ∀ (ms : List Move) (s t : State), s.cfg.unitMode = .fixed2 → Move.reset ∉ ms → runMoves ms s = .next t →
    (t.rx.have_ = true ↔ ((offered ms).length + (if s.rx.have_ then 1 else 0)) % 2 = 1) ∧
    (t.rx.have_ = true → ∀ b, (offered ms).getLast? = some b → t.rx.hold = b)

/-- R263: a unit is accepted in `AWAIT` and dropped whole in every other state; nothing else changes. -/
def Obligations.DeliveryAcceptsOrDrops : Prop :=
  ∀ (s : State) (u : CmdUnit),
    (s.seq.state = .await → s.deliver u = { s with seq := { s.seq with cmdUnit := u, state := .parse } }) ∧
    (s.seq.state ≠ .await → s.deliver u = { s with trace := s.trace ++ [.dropped u] })

/-- R213, R344, R352: while SEQ is not in `AWAIT`, bytes and whole units, however many, change RX and the trace alone, and
the trace only by `Dropped` events. -/
def Obligations.BusyInputIsDropped : Prop :=
  ∀ (bs : List Byte) (s t : State), s.seq.state ≠ .await → runMoves (bs.map Move.rx) s = .next t →
    t.seq = s.seq ∧ t.fb = s.fb ∧ t.tx = s.tx ∧ t.cfg = s.cfg ∧ t.wire = s.wire ∧ t.now = s.now ∧
    ∃ us : List CmdUnit, t.trace = s.trace ++ us.map Event.dropped

/-! ## The command states -/

/-- R265, R266: one SEQ step of `PARSE`. That in `FIXED2` mode a unit without exactly two bytes, which R266 says no run has,
gives Invalid is the model's (log entry 19). -/
def Obligations.ParseStepRule : Prop :=
  ∀ s : State, s.seq.state = .parse → ∃ t, act .seq s = .next t ∧ t.seq.state = .validate ∧
    t = { s with seq := { s.seq with state := .validate, cmd := t.seq.cmd } } ∧
    (s.seq.cmdUnit = .overflow → t.seq.cmd = .invalid) ∧
    (∀ bs, s.seq.cmdUnit = .bytes bs → (bs = [] ∨ 2 < bs.length) → t.seq.cmd = .invalid) ∧
    (∀ b, s.seq.cmdUnit = .bytes [b] → t.seq.cmd =
      if s.cfg.unitMode = .line ∧ 0x30 ≤ b.toNat ∧ b.toNat ≤ 0x39 then .fill (b.toNat - 0x30) else .invalid) ∧
    (∀ a b, s.seq.cmdUnit = .bytes [a, b] → t.seq.cmd =
      if (0x30 ≤ a.toNat ∧ a.toNat ≤ 0x39) ∧ 0x30 ≤ b.toNat ∧ b.toNat ≤ 0x39
      then .directional (a.toNat - 0x30) (b.toNat - 0x30) else .invalid)

/-- R267, R268, R269: one SEQ step of `VALIDATE`. A rejected unit changes `seq_state` and the trace alone. -/
def Obligations.ValidateStepRule : Prop :=
  ∀ s : State, s.seq.state = .validate →
    (s.seq.cmd = .invalid → act .seq s = .next { s with
        seq := { s.seq with state := .await }, trace := s.trace ++ [.err 1 (.unit s.seq.cmdUnit)] }) ∧
    (∀ d c, (s.seq.cmd = .fill c ∨ s.seq.cmd = .directional d c) → 9 < c →
      act .seq s = .next { s with seq := { s.seq with state := .await }, trace := s.trace ++ [.err 2 (.colour c)] }) ∧
    (∀ d c, (s.seq.cmd = .fill c ∨ s.seq.cmd = .directional d c) → c ≤ 9 →
      ∃ t, act .seq s = .next t ∧ t.seq.state = .dispatch ∧ t.trace = s.trace ∧
        t = { s with seq := { s.seq with state := .dispatch, loadPending := t.seq.loadPending } })

/-- R107, R269, R301: a malformed unit in `PARSE` goes back to `AWAIT` in two SEQ steps, leaves one MalformedCommand event
with the unit, and changes neither the framebuffer nor TX, RX or the wire. -/
def Obligations.MalformedUnitIsIgnored : Prop :=
  ∀ s : State, s.seq.state = .parse → decode s.cfg.unitMode s.seq.cmdUnit = .error (.malformedCommand s.seq.cmdUnit) →
    ∃ t, runMoves [.seq, .seq] s = .next t ∧ t.seq.state = .await ∧ t.seq.prog = s.seq.prog ∧ t.seq.pc = s.seq.pc ∧
      t.trace = s.trace ++ [.err 1 (.unit s.seq.cmdUnit)] ∧
      t.fb = s.fb ∧ t.tx = s.tx ∧ t.rx = s.rx ∧ t.wire = s.wire ∧ t.cfg = s.cfg

/-- R270, R272, R273: the DISPATCH step of each command loads its pattern's program with `pc = 0`, for every colour index the
palette has, and changes nothing else. -/
def Obligations.CommandsLoadTheirPattern : Prop :=
  ∀ (d c : Nat) (s : State), s.cfg.palette.length = 10 → c ≤ 9 →
    exec (.cmdFill c) s = .next (s.load (s.cfg.expand (.fillBounce c))) ∧
    exec (.cmdDirA c) s = .next (s.load (s.cfg.expand (if s.cfg.chaseMode = .pair then .chaseA c else .sectionFwd c))) ∧
    exec (.cmdDirB d c) s =
      .next (s.load (s.cfg.expand (if s.cfg.chaseMode = .pair then .chaseB c else .sectionRev c))) ∧
    ∀ ops, s.load ops = { s with seq := { s.seq with prog := ops, pc := 0, loadPending := false } }

/-- R271: direction 0 is CMD_DIR_A, every direction from 1 to 9 CMD_DIR_B, which plays as direction 1 whatever it is; no
direction is rejected. -/
def Obligations.DirectionIsClamped : Prop :=
  ∀ (d c : Nat) (s : State), Cmd.instr? (.directional 0 c) = some (.cmdDirA c) ∧
    (1 ≤ d → Cmd.instr? (.directional d c) = some (.cmdDirB d c)) ∧ exec (.cmdDirB d c) s = exec (.cmdDirB 1 c) s ∧
    (c ≤ 9 → ∀ u, validate u (.directional d c) = none)

/-- R103 to R106, R260 to R273: the bytes of a well-formed command, offered in `AWAIT` with RX empty and followed by three
SEQ steps, run exactly that command, whether or not a CR precedes a line's LF. The state it runs in differs from the first
only in SEQ's command registers and RX's held byte. -/
def Obligations.SentCommandRuns : Prop :=
  ∀ (s : State) (i : Instr) (bs cr : List Byte), s.seq.state = .await → s.rx.buf = [] → s.rx.ovf = false →
    s.rx.have_ = false → i.wf s.cfg = true → encode i = some bs →
    (cr = [] ∨ (s.cfg.unitMode = .line ∧ cr = [0x0D#8])) →
    ∃ u, runMoves ((frameBytes s.cfg.unitMode (bs ++ cr)).map Move.rx ++ [.seq, .seq, .seq]) s = exec i u ∧
      u = { s with seq := { s.seq with state := .dispatch, cmdUnit := .bytes bs, cmd := u.seq.cmd, loadPending := true },
                   rx := { s.rx with hold := u.rx.hold } } ∧
      u.seq.cmd.instr? = some i

/-! ## One step -/

/-- The step around `exec` (log entry 2): under a valid configuration the agenda's first move happens; SEQ's move runs the
micro-operation at `pc` while a program runs (R212), and the decoded command at DISPATCH (R270 to R273), each by `exec`, with
the move taken off the agenda and nothing else around it. -/
def Obligations.StepRunsTheInstruction : Prop :=
  ∀ (s : State) (ms : List Move), s.cfg.valid = true →
    (∀ m, s.agenda = m :: ms → step s = act m { s with agenda := ms }) ∧
    (s.agenda = .seq :: ms → ∀ i, s.running = true → s.seq.prog[s.seq.pc]? = some i →
      step s = exec i { s with agenda := ms }) ∧
    (s.agenda = .seq :: ms → ∀ i, s.seq.state = .dispatch → s.seq.loadPending = true → s.seq.cmd.instr? = some i →
      step s = exec i { s with agenda := ms })

/-- Steps of the machine are the moves of its agenda: a run of as many steps as the agenda has moves is the run of those
moves. -/
def Obligations.StepsAreTheAgendasMoves : Prop :=
  ∀ (ms rest : List Move) (s : State), s.cfg.valid = true →
    Sys2Proof.core.run ms.length { s with agenda := ms ++ rest } = runMoves ms { s with agenda := rest }

/-- R274, R345: when the program has completed, SEQ's step sets `seq_state` to `AWAIT` and changes nothing else, whatever TX
is doing. R264, R314: in `AWAIT` SEQ's move changes nothing, and no move changes anything of SEQ but a reset and the byte
that completes a unit, which SEQ accepts. -/
def Obligations.CompletedProgramAwaits : Prop :=
  (∀ s : State, s.running = true → s.seq.pc = s.seq.prog.length →
    act .seq s = .next { s with seq := { s.seq with state := .await } }) ∧
  (∀ s : State, s.seq.state = .await → act .seq s = .next s) ∧
  ∀ (m : Move) (s t : State), s.seq.state = .await → act m s = .next t → t.seq ≠ s.seq →
    m = .reset ∨ ∃ b, m = .rx b ∧ t.seq = { s.seq with state := .parse, cmdUnit := t.seq.cmdUnit } ∧
      ((s.cfg.unitMode = .line ∧ b = 0x0A#8 ∧ t.seq.cmdUnit = if s.rx.ovf then .overflow
          else if s.rx.buf.getLast? = some 0x0D#8 then .bytes s.rx.buf.dropLast else .bytes s.rx.buf) ∨
        (s.cfg.unitMode = .fixed2 ∧ s.rx.have_ = true ∧ t.seq.cmdUnit = .bytes [s.rx.hold, b]))

/-! ## PixelBuffer -/

/-- R140: SET writes its pixel in range; outside it writes nothing and raises BoundaryOverrun with the position, and SEQ goes
on either way, with nothing else changed. -/
def Obligations.SetWritesOrSkips : Prop :=
  ∀ (p : Int) (px : Pixel) (s : State), Memory.wf s.cfg.n s.fb = true → ∃ t, exec (.set p px) s = .next t ∧
    t = { s with fb := t.fb, trace := t.trace, seq := { s.seq with pc := s.seq.pc + 1 } } ∧
    (0 ≤ p ∧ p ≤ (s.cfg.n : Int) - 1 → t.readFB p.toNat = some px ∧ t.trace = s.trace ∧
      ∀ q : Nat, (q : Int) ≠ p → t.readFB q = s.readFB q) ∧
    (p < 0 ∨ (s.cfg.n : Int) - 1 < p → t.fb = s.fb ∧ t.trace = s.trace ++ [.err 3 (.position p)])

/-- R141: FILL writes every entry in one step and, with `pc`, nothing else: it raises nothing. -/
def Obligations.FillWritesEveryEntry : Prop :=
  ∀ (px : Pixel) (s : State), ∃ t, exec (.fill px) s = .next t ∧
    t = { s with fb := t.fb, seq := { s.seq with pc := s.seq.pc + 1 } } ∧
    t.fb.length = s.cfg.n ∧ ∀ q, q < s.cfg.n → t.readFB q = some px

/-- R142: GET returns the entry as stored and writes nothing but the model's result; outside [0, N-1] it is refused. -/
def Obligations.GetReadsOrIsRefused : Prop :=
  ∀ (k : Int) (s : State), Memory.wf s.cfg.n s.fb = true →
    (0 ≤ k ∧ k ≤ (s.cfg.n : Int) - 1 → ∃ px, s.readFB k.toNat = some px ∧
      exec (.get k) s = .next { s with seq := { s.seq with pc := s.seq.pc + 1, result := .pixel px } }) ∧
    (k < 0 ∨ (s.cfg.n : Int) - 1 < k → exec (.get k) s = .refused (.getOutOfRange k))

/-- R143: a GET that follows a SET of the same valid index, with micro-operations between them that neither SET that index
nor FILL, returns the pixel written. -/
def Obligations.GetAfterSetReturnsThePixel : Prop :=
  ∀ (k : Nat) (px : Pixel) (ops : List Instr) (s u : State), Memory.wf s.cfg.n s.fb = true → k < s.cfg.n →
    (∀ i ∈ ops, i.isMicro = true) → (∀ px', Instr.set k px' ∉ ops) → (∀ px', Instr.fill px' ∉ ops) →
    runOps (.set k px :: ops) s = .next u →
    ∃ t, runOps [.get k] u = .next t ∧ t.seq.result = .pixel px

/-! ## BrightnessScaler -/

/-- R160: a scaled channel is exactly `floor(x * f)` and is in [0, x]. -/
def Obligations.ChannelScalesByExactFloor : Prop :=
  ∀ (x : Byte) (f : Rat), 0 ≤ f → f ≤ 1 →
    ((scaleChannel x f).toNat : Int) = ⌊(x.toNat : Rat) * f⌋ ∧ (scaleChannel x f).toNat ≤ x.toNat

/-- R110, R161: green in bits 23 to 16, red in 15 to 8, blue in 7 to 0, each scaled by the same factor. -/
def Obligations.WordPacksGreenRedBlue : Prop :=
  ∀ (px : Pixel) (f : Rat),
    (pack px f).extractLsb' 16 8 = scaleChannel px.g f ∧
    (pack px f).extractLsb' 8 8 = scaleChannel px.r f ∧
    (pack px f).extractLsb' 0 8 = scaleChannel px.b f

/-- R162, R163: SCALE returns the frame of `N` words, word `k` packed from `FB[k]` with the clamped factor, and changes
nothing but `pc` and the model's result. -/
def Obligations.ScaleReturnsTheFrame : Prop :=
  ∀ s : State, Memory.wf s.cfg.n s.fb = true → ∃ ws,
    exec .scale s = .next { s with seq := { s.seq with pc := s.seq.pc + 1, result := .frame ws } } ∧
    ws.length = s.cfg.n ∧
    ∀ k px, s.readFB k = some px → ws[k]? = some (pack px (min 1 (max 0 s.cfg.brightness)))

/-- R164: at factor 1 the frame reorders channels without loss; at factor 0 every word is 0. -/
def Obligations.ScaleIdentityAndZero : Prop :=
  ∀ (cfg : Config) (fb : Memory) (k : Nat) (w : WireWord) (px : Pixel), (frameOf cfg fb)[k]? = some w → fb[k]? = some px →
    (factor cfg = 1 → w.extractLsb' 16 8 = px.g ∧ w.extractLsb' 8 8 = px.r ∧ w.extractLsb' 0 8 = px.b) ∧
    (factor cfg = 0 → w = 0)

/-- R165: scaling is non-decreasing in the channel and in the factor, scales 255 to `floor(255 * f)`, and keeps every channel
only at factor 1. -/
def Obligations.ScalingIsMonotone : Prop :=
  ∀ f g : Rat, 0 ≤ f → f ≤ g → g ≤ 1 →
    (∀ x y : Byte, x.toNat ≤ y.toNat → (scaleChannel x f).toNat ≤ (scaleChannel y f).toNat) ∧
    (∀ x : Byte, (scaleChannel x f).toNat ≤ (scaleChannel x g).toNat) ∧
    ((scaleChannel 255 f).toNat : Int) = ⌊255 * f⌋ ∧
    ((∀ x : Byte, scaleChannel x f = x) → f = 1)

/-! ## StripTransmitter -/

/-- R180, R181: in `IDLE` TRANSMIT hands its frame over at once and completes; in `SHIFT` and `LATCH` it only records the
hold. -/
def Obligations.TransmitHandsOverOrHolds : Prop :=
  ∀ (fr : List WireWord) (s : State),
    (s.tx.state = .idle → exec (.transmit fr) s = .next { s with
      seq := { s.seq with pc := s.seq.pc + 1, hold := .none },
      tx := { s.tx with state := .shift, frame := fr, pix := 0, bit := 23, phase := .high, phaseTime := 0, dout := .high },
      trace := s.trace ++ [.frame fr] }) ∧
    (s.tx.state ≠ .idle → exec (.transmit fr) s = .next { s with seq := { s.seq with hold := .txBusy } })

/-- R182: the high phase of bit `x` ends, at any duration in its interval and at no other, with `dout` low. -/
def Obligations.HighPhaseEnds : Prop :=
  ∀ (s : State) (w : WireWord) (hi : Rat), s.tx.state = .shift → s.tx.phase = .high → s.tx.frame[s.tx.pix]? = some w →
    hi = (if w.getLsbD s.tx.bit then s.cfg.t1h else s.cfg.t0h) →
    (hi * (1 - s.cfg.jitter) ≤ s.tx.phaseTime ∧ s.tx.phaseTime ≤ hi * (1 + s.cfg.jitter) →
      act .tx s = .next { s with tx := { s.tx with dout := .low, phase := .low, phaseTime := 0 },
                                 wire := s.wire ++ [(.high, s.tx.phaseTime)] }) ∧
    (¬ (hi * (1 - s.cfg.jitter) ≤ s.tx.phaseTime ∧ s.tx.phaseTime ≤ hi * (1 + s.cfg.jitter)) → act .tx s = .next s)

/-- R183: the low phase of bit `x` ends, at any duration in its interval and at no other: after the last bit of the frame in
`LATCH`, else at once in the next symbol, the next lower bit of the word or bit 23 of the next word. -/
def Obligations.LowPhaseEnds : Prop :=
  ∀ (s : State) (w : WireWord) (lo : Rat), s.tx.state = .shift → s.tx.phase = .low → s.tx.frame[s.tx.pix]? = some w →
    s.tx.pix < s.cfg.n → lo = s.cfg.tBit - (if w.getLsbD s.tx.bit then s.cfg.t1h else s.cfg.t0h) →
    (lo * (1 - s.cfg.jitter) ≤ s.tx.phaseTime ∧ s.tx.phaseTime ≤ lo * (1 + s.cfg.jitter) →
      act .tx s = .next { s with
        tx := if s.tx.pix = s.cfg.n - 1 ∧ s.tx.bit = 0 then { s.tx with state := .latch, lowTime := 0, phaseTime := 0 }
          else if 0 < s.tx.bit then { s.tx with bit := s.tx.bit - 1, phase := .high, dout := .high, phaseTime := 0 }
          else { s.tx with pix := s.tx.pix + 1, bit := 23, phase := .high, dout := .high, phaseTime := 0 },
        wire := s.wire ++ [(.low, s.tx.phaseTime)] }) ∧
    (¬ (lo * (1 - s.cfg.jitter) ≤ s.tx.phaseTime ∧ s.tx.phaseTime ≤ lo * (1 + s.cfg.jitter)) → act .tx s = .next s)

/-- R47, R185, R186, R187: time in `LATCH` adds to `tx_low_time`; TX's step leaves `LATCH` for `IDLE` exactly when it has
reached `T_LATCH`; in `IDLE` TX takes no step and time moves `now` alone. R184, R350: time in `SHIFT` adds to the time of the
phase, never past the longest the tolerance allows it. -/
def Obligations.LatchGapAndIdle : Prop :=
  ∀ (s : State) (dt : Rat),
    (s.tx.state = .idle → 0 ≤ dt → act (.tick dt) s = .next { s with now := s.now + dt }) ∧
    (∀ (w : WireWord) (hi d : Rat), s.tx.state = .shift → s.tx.frame[s.tx.pix]? = some w →
      hi = (if w.getLsbD s.tx.bit then s.cfg.t1h else s.cfg.t0h) →
      d = (if s.tx.phase = .high then hi else s.cfg.tBit - hi) * (1 + s.cfg.jitter) →
      (0 ≤ dt → s.tx.phaseTime + dt ≤ d → act (.tick dt) s =
        .next { s with now := s.now + dt, tx := { s.tx with phaseTime := s.tx.phaseTime + dt } }) ∧
      (dt < 0 ∨ d < s.tx.phaseTime + dt → act (.tick dt) s = .next s)) ∧
    (s.tx.state ≠ .shift → dt < 0 → act (.tick dt) s = .next s) ∧
    (s.tx.state = .latch → 0 ≤ dt → act (.tick dt) s =
      .next { s with now := s.now + dt, tx := { s.tx with lowTime := s.tx.lowTime + dt } }) ∧
    (s.tx.state = .latch → s.cfg.tLatch ≤ s.tx.lowTime → act .tx s =
      .next { s with tx := { s.tx with state := .idle }, wire := s.wire ++ [(.low, s.tx.lowTime)] }) ∧
    (s.tx.state = .latch → s.tx.lowTime < s.cfg.tLatch → act .tx s = .next s) ∧
    (s.tx.state = .idle → act .tx s = .next s)

/-- R48, R192: whatever the move, `dout` and the rest of TX change only by TX's own step, the passing of time, a reset, or a
hand-over of a frame to an idle TX by SEQ, and the hand-over is in the trace. -/
def Obligations.WireIsDrivenOnlyByTx : Prop :=
  ∀ (m : Move) (s t : State), act m s = .next t → t.tx ≠ s.tx →
    m = .tx ∨ (∃ dt, m = .tick dt ∧ t.tx.dout = s.tx.dout) ∨ m = .reset ∨
    (m = .seq ∧ s.tx.state = .idle ∧ t.tx.state = .shift ∧ t.trace = s.trace ++ [.frame t.tx.frame])

/-- R190, with R111, R112, R183: from the hand-over of a frame until TX has left `SHIFT`, the wire carries the two phases of
each of its symbols, word 0 first and the most significant bit first, with no gap, each within its tolerance; in `IDLE` a
low of at least `T_LATCH` has followed. -/
def Obligations.WireCarriesTheFrame : Prop :=
  ∀ (ms : List Move) (s t : State), Inv s → FrameStart s → Move.reset ∉ ms → runMoves ms s = .next t →
    t.tx.state ≠ .shift → ∃ rest, t.wire = s.wire ++ rest ∧ CarriesFrame s.cfg s.tx.frame rest ∧
      (t.tx.state = .idle → ∃ d, rest[48 * s.cfg.n]? = some (.low, d) ∧ s.cfg.tLatch ≤ d)

/-- R191: from one hand-over to the next, which needs TX idle again, at least `24 N T_BIT (1 - JITTER) + T_LATCH` passes. -/
def Obligations.HandOversAreSpaced : Prop :=
  ∀ (ms : List Move) (s t : State), Inv s → FrameStart s → Move.reset ∉ ms → runMoves ms s = .next t →
    t.tx.state = .idle →
    s.now + 24 * (s.cfg.n : Rat) * s.cfg.tBit * (1 - s.cfg.jitter) + s.cfg.tLatch ≤ t.now

/-- R184, R350: if every completed phase on the wire record is within the tolerance or a latch gap, every step keeps it
so. -/
def Obligations.WirePhasesStayInTolerance : Prop :=
  ∀ s t : State, (∀ p ∈ s.wire, PulseOk s.cfg p) → step s = .next t → ∀ p ∈ t.wire, PulseOk t.cfg p

/-- R44, R341: after reset, and after a reset in any state at any time, TX stays in `LATCH` for at least `T_LATCH`, so the
first frame follows that much of low line. -/
def Obligations.FirstFrameFollowsTheLatchGap : Prop :=
  (∀ (cfg : Config) (ms : List Move) (t : State), Move.reset ∉ ms → runMoves ms (State.resetWith cfg) = .next t →
    t.tx.state ≠ .latch → cfg.tLatch ≤ t.now) ∧
  ∀ (s : State) (ms : List Move) (t : State), Move.reset ∉ ms → runMoves (.reset :: ms) s = .next t →
    t.tx.state ≠ .latch → s.now + s.cfg.tLatch ≤ t.now

/-! ## AnimationEngine -/

/-- R210: RENDER is TRANSMIT of the frame SCALE returns, as one step: in `IDLE` it completes with that frame handed over, else
it records the hold. -/
def Obligations.RenderTransmitsTheScaledFrame : Prop :=
  ∀ s : State, exec .render s = exec (.transmit (frameOf s.cfg s.fb)) s ∧
    (s.tx.state = .idle → ∃ t, exec .render s = .next t ∧ t.trace = s.trace ++ [.frame (frameOf s.cfg s.fb)] ∧
      t.tx.frame = frameOf s.cfg s.fb ∧ t.tx.state = .shift ∧ t.seq.pc = s.seq.pc + 1 ∧ t.fb = s.fb) ∧
    (s.tx.state ≠ .idle → exec .render s = .next { s with seq := { s.seq with hold := .txBusy } })

/-- R211: DELAY, reached, completes at once when `t = 0` and otherwise holds from now; held, it waits until `t0 + t` and then
completes. -/
def Obligations.DelayHoldsThenCompletes : Prop :=
  ∀ (t : Rat) (s : State),
    (s.seq.hold = .none → t = 0 → exec (.delay t) s = .next { s with seq := { s.seq with pc := s.seq.pc + 1 } }) ∧
    (s.seq.hold = .none → 0 < t → exec (.delay t) s = .next { s with seq := { s.seq with hold := .delay s.now t } }) ∧
    (∀ t0, s.seq.hold = .delay t0 t → s.now < t0 + t → exec (.delay t) s = .next s) ∧
    (∀ t0, s.seq.hold = .delay t0 t → t0 + t ≤ s.now →
      exec (.delay t) s = .next { s with seq := { s.seq with pc := s.seq.pc + 1, hold := .none } })

/-- R214, R216, R217, R220, R221, R224: taking up a pattern loads its micro-operation list with `pc = 0`, for every colour
index the palette has (that a pattern as an instruction is a load is the model's, log entry 8). -/
def Obligations.PatternsLoadTheirExpansion : Prop :=
  ∀ (c : Nat) (s : State), s.cfg.palette.length = 10 → c ≤ 9 →
    exec (.fillBounce c) s = .next (s.load (s.cfg.expand (.fillBounce c))) ∧
    exec (.chaseA c) s = .next (s.load (s.cfg.expand (.chaseA c))) ∧
    exec (.chaseB c) s = .next (s.load (s.cfg.expand (.chaseB c))) ∧
    exec (.sectionFwd c) s = .next (s.load (s.cfg.expand (.sectionFwd c))) ∧
    exec (.sectionRev c) s = .next (s.load (s.cfg.expand (.sectionRev c))) ∧
    exec .rainbow s = .next (s.load (s.cfg.expand .rainbow))

/-- R214, R216, R217, R220, R221, R224: the length of each pattern's program, and the micro-operations of each of its steps
at their places in it, in order. A sectioned chase's step `k` has `2 l_k` SETs, RENDER, DELAY and, under `CLEAR_RENDER`, a
RENDER; the steps before it in the forward order are those of sections 0 to `k - 1`, in the reverse order those of the
sections after `k`. -/
def Obligations.PairPatternsUnroll : Prop :=
  ∀ (cfg : Config) (c : Nat) (px : Pixel) (x : Nat), px = cfg.palette.getD c ⟨0, 0, 0⟩ →
  x = (if cfg.clearRender then 1 else 0) →
  (∀ i : Nat, (i : Int) < cfg.n - cfg.b →
    ((cfg.expand (.fillBounce c)).length : Int) = 6 * (cfg.n - cfg.b) ∧
    ((cfg.expand (.chaseA c)).length : Int) = (if cfg.clearRender then 7 else 6) * (cfg.n - cfg.b) ∧
    ((cfg.expand (.chaseB c)).length : Int) = (if cfg.clearRender then 7 else 6) * (cfg.n - cfg.b) ∧
    ((cfg.expand (.fillBounce c)).drop (6 * i)).take 6 =
      [.set (cfg.b - 1 - i) px, .set (cfg.b + i) px, .render,
       .set (cfg.b - 1 - i) ⟨0, 0, 0⟩, .set (cfg.b + i) ⟨0, 0, 0⟩, .render] ∧
    ((cfg.expand (.chaseA c)).drop ((if cfg.clearRender then 7 else 6) * i)).take (if cfg.clearRender then 7 else 6) =
      [.set (cfg.b - 1 - i) px, .set (cfg.b + i) px, .render, .delay cfg.tChase,
       .set (cfg.b - 1 - i) ⟨0, 0, 0⟩, .set (cfg.b + i) ⟨0, 0, 0⟩] ++ (if cfg.clearRender then [.render] else []) ∧
    ((cfg.expand (.chaseB c)).drop ((if cfg.clearRender then 7 else 6) * i)).take (if cfg.clearRender then 7 else 6) =
      [.set (cfg.n - cfg.b + i) px, .set (cfg.n - 1 - cfg.b - i) px, .render, .delay cfg.tChase,
       .set (cfg.n - cfg.b + i) ⟨0, 0, 0⟩, .set (cfg.n - 1 - cfg.b - i) ⟨0, 0, 0⟩] ++
        (if cfg.clearRender then [.render] else [])) ∧
  (∀ (k l : Nat) (sets : Pixel → List Instr), cfg.sections[k]? = some l →
    (∀ q, sets q = (List.range l).map fun p => .set (((cfg.sections.take k).sum + p : Nat) : Int) q) →
    (cfg.expand (.sectionFwd c)).length = 2 * cfg.sections.sum + (2 + x) * cfg.sections.length ∧
    (cfg.expand (.sectionRev c)).length = 2 * cfg.sections.sum + (2 + x) * cfg.sections.length ∧
    ((cfg.expand (.sectionFwd c)).drop (2 * (cfg.sections.take k).sum + (2 + x) * k)).take (2 * l + 2 + x) =
      sets px ++ [.render, .delay cfg.tSection] ++ sets ⟨0, 0, 0⟩ ++ (if cfg.clearRender then [.render] else []) ∧
    ((cfg.expand (.sectionRev c)).drop
        (2 * (cfg.sections.drop (k + 1)).sum + (2 + x) * (cfg.sections.length - (k + 1)))).take (2 * l + 2 + x) =
      sets px ++ [.render, .delay cfg.tSection] ++ sets ⟨0, 0, 0⟩ ++ (if cfg.clearRender then [.render] else [])) ∧
  (cfg.expand .rainbow).length = 255 * (cfg.n + 2) ∧
  ∀ j : Nat, j < 255 → ((cfg.expand .rainbow).drop ((cfg.n + 2) * j)).take (cfg.n + 2) =
    ((List.range cfg.n).map fun i => .set (i : Int) (wheel ((255 * i / cfg.n + j) % 255))) ++
      [.render, .delay cfg.tRainbow]

/-- R229: the sizes of every pattern, SETs, RENDERs, DELAYs and BoundaryOverrun events. -/
def Obligations.PatternSizes : Prop :=
  ∀ (cfg : Config) (c k m l x : Nat), cfg.valid = true → (k : Int) = cfg.n - cfg.b → m = cfg.sections.length →
    l = cfg.sections.sum → x = (if cfg.clearRender then 1 else 0) →
    sizes cfg (cfg.expand (.fillBounce c)) = (4 * k, 2 * k, 0, 2 * ((cfg.n : Int) - 2 * cfg.b).toNat) ∧
    sizes cfg (cfg.expand (.chaseA c)) = (4 * k, k * (1 + x), k, 2 * ((cfg.n : Int) - 2 * cfg.b).toNat) ∧
    sizes cfg (cfg.expand (.chaseB c)) = (4 * k, k * (1 + x), k, 2 * ((cfg.n : Int) - 2 * cfg.b).toNat) ∧
    sizes cfg (cfg.expand (.sectionFwd c)) = (2 * l, m * (1 + x), m, 0) ∧
    sizes cfg (cfg.expand (.sectionRev c)) = (2 * l, m * (1 + x), m, 0) ∧
    sizes cfg (cfg.expand .rainbow) = (255 * cfg.n, 255, 255, 0)

/-- R214 to R218: the frames the mirrored patterns emit from an all-Black framebuffer: step `i` lights exactly its in-range
positions, and the fill-bounce always, a chase with `CLEAR_RENDER`, follows with the all-zero frame. -/
def Obligations.PairPatternFrames : Prop :=
  ∀ (cfg : Config) (c : Nat), cfg.valid = true → c ≤ 9 →
    framesIn (playFromBlack cfg (cfg.expand (.fillBounce c))).events =
      (List.range (cfg.n - cfg.b).toNat).flatMap (fun i =>
        [litFrame cfg (cfg.colour c) fun q => decide (q = cfg.b - 1 - i) || decide (q = cfg.b + i), darkFrame cfg]) ∧
    framesIn (playFromBlack cfg (cfg.expand (.chaseA c))).events =
      (List.range (cfg.n - cfg.b).toNat).flatMap (fun i =>
        litFrame cfg (cfg.colour c) (fun q => decide (q = cfg.b - 1 - i) || decide (q = cfg.b + i)) ::
          if cfg.clearRender then [darkFrame cfg] else []) ∧
    framesIn (playFromBlack cfg (cfg.expand (.chaseB c))).events =
      (List.range (cfg.n - cfg.b).toNat).flatMap (fun i =>
        litFrame cfg (cfg.colour c) (fun q => decide (q = cfg.n - cfg.b + i) || decide (q = cfg.n - 1 - cfg.b - i)) ::
          if cfg.clearRender then [darkFrame cfg] else [])

/-- R219 to R221, R228: the frames the sectioned chases emit from an all-Black framebuffer: each lights exactly one section,
forward or in reverse list order, with an all-zero frame after each under `CLEAR_RENDER`; every DELAY lasts `T_SECTION`. -/
def Obligations.SectionPatternFrames : Prop :=
  ∀ (cfg : Config) (c : Nat) (lit : Nat → List (List WireWord)), cfg.valid = true → c ≤ 9 →
    (∀ k, lit k = litFrame cfg (cfg.colour c) (fun q => decide (((cfg.sections.take k).sum : Int) ≤ q) &&
        decide (q < ((cfg.sections.take (k + 1)).sum : Int))) :: if cfg.clearRender then [darkFrame cfg] else []) →
    framesIn (playFromBlack cfg (cfg.expand (.sectionFwd c))).events = (List.range cfg.sections.length).flatMap lit ∧
    framesIn (playFromBlack cfg (cfg.expand (.sectionRev c))).events = (List.range cfg.sections.length).reverse.flatMap lit ∧
    ∀ t, Instr.delay t ∈ cfg.expand (.sectionFwd c) ++ cfg.expand (.sectionRev c) → t = cfg.tSection

/-- R222: the wheel's three ramps. -/
def Obligations.WheelRamps : Prop :=
  ∀ k : Nat, k ≤ 254 →
    (k < 85 → (wheel k).r.toNat = 255 - 3 * k ∧ (wheel k).g.toNat = 3 * k ∧ (wheel k).b.toNat = 0) ∧
    (85 ≤ k → k < 170 → (wheel k).r.toNat = 0 ∧ (wheel k).g.toNat = 255 - 3 * (k - 85) ∧ (wheel k).b.toNat = 3 * (k - 85)) ∧
    (170 ≤ k → (wheel k).r.toNat = 3 * (k - 170) ∧ (wheel k).g.toNat = 0 ∧ (wheel k).b.toNat = 255 - 3 * (k - 170))

/-- R223, R224, R227: the rainbow emits 255 frames, word `i` of frame `j` the wheel at `(floor(255 i / N) + j) mod 255`, from
any framebuffer of `N` pixels, and leaves the last step's colours, none of them Black; every DELAY lasts `T_RAINBOW`. -/
def Obligations.RainbowFrames : Prop :=
  ∀ (cfg : Config) (fb : Memory) (es : List Event), cfg.valid = true → Memory.wf cfg.n fb = true →
    framesIn (play cfg (cfg.expand .rainbow) ⟨fb, es⟩).events = framesIn es ++ (List.range 255).map (fun j =>
      (List.range cfg.n).map fun i => pack (wheel ((255 * i / cfg.n + j) % 255)) (factor cfg)) ∧
    (play cfg (cfg.expand .rainbow) ⟨fb, es⟩).fb = (List.range cfg.n).map (fun i => wheel ((255 * i / cfg.n + 254) % 255)) ∧
    Pixel.black ∉ (play cfg (cfg.expand .rainbow) ⟨fb, es⟩).fb ∧
    ∀ t, Instr.delay t ∈ cfg.expand .rainbow → t = cfg.tRainbow

/-- R226: from an all-Black framebuffer, frame `m` of CHASE_B is frame `m` of CHASE_A read in reverse index order. -/
def Obligations.ChasesMirrorEachOther : Prop :=
  ∀ (cfg : Config) (c : Nat), cfg.valid = true → c ≤ 9 →
    framesIn (playFromBlack cfg (cfg.expand (.chaseB c))).events =
      (framesIn (playFromBlack cfg (cfg.expand (.chaseA c))).events).map List.reverse

/-- R227: from an all-Black framebuffer, with `K >= 1`, the fill-bounce renders each position of [max(0, 2B - N), N - 1] in
its scaled colour in some frame, leaves the framebuffer all Black, and its last frame is all zero. -/
def Obligations.FillBounceLightsAndClears : Prop :=
  ∀ (cfg : Config) (c : Nat), cfg.valid = true → c ≤ 9 → 1 ≤ (cfg.n : Int) - cfg.b →
    (∀ k : Nat, max 0 (2 * cfg.b - cfg.n) ≤ (k : Int) → k < cfg.n →
      ∃ fr ∈ framesIn (playFromBlack cfg (cfg.expand (.fillBounce c))).events,
        fr[k]? = some (pack (cfg.colour c) (factor cfg))) ∧
    (playFromBlack cfg (cfg.expand (.fillBounce c))).fb = List.replicate cfg.n Pixel.black ∧
    (framesIn (playFromBlack cfg (cfg.expand (.fillBounce c))).events).getLast? = some (darkFrame cfg)

/-- R227: every pattern other than RAINBOW that is entered with the framebuffer all Black leaves it all Black. -/
def Obligations.PatternsLeaveBlack : Prop :=
  ∀ (cfg : Config) (p : Pattern), cfg.valid = true → p ≠ .rainbow →
    (playFromBlack cfg (cfg.expand p)).fb = List.replicate cfg.n Pixel.black

/-! ## The whole machine -/

/-- What each instruction leaves unchanged when it answers a next state (R76, R77, R83, R144, R163, R192): the configuration,
RX, the wire record, real time and what is still to come always; `seq_state`, `cmd_unit` and `cmd` always; the framebuffer but
for SET and FILL, and for SET every entry but the one it names; TX but for TRANSMIT and RENDER; the trace but for SET,
TRANSMIT and RENDER; `prog` for every micro-operation; the model's result but for GET and SCALE; `seq_hold` but for TRANSMIT,
RENDER and DELAY. -/
def Obligations.InstructionFrames : Prop :=
  ∀ (i : Instr) (s t : State), exec i s = .next t →
    RestSame s t ∧ t.seq.state = s.seq.state ∧ t.seq.cmdUnit = s.seq.cmdUnit ∧ t.seq.cmd = s.seq.cmd ∧
    ((∀ p px, i ≠ .set p px) → (∀ px, i ≠ .fill px) → t.fb = s.fb) ∧
    (∀ p px, i = .set p px → ∀ q : Nat, (q : Int) ≠ p → t.readFB q = s.readFB q) ∧
    ((∀ fr, i ≠ .transmit fr) → i ≠ .render → t.tx = s.tx) ∧
    ((∀ p px, i ≠ .set p px) → (∀ fr, i ≠ .transmit fr) → i ≠ .render → t.trace = s.trace) ∧
    (i.isMicro = true → t.seq.prog = s.seq.prog ∧ t.seq.loadPending = s.seq.loadPending) ∧
    ((∀ k, i ≠ .get k) → i ≠ .scale → t.seq.result = s.seq.result) ∧
    ((∀ fr, i ≠ .transmit fr) → i ≠ .render → (∀ d, i ≠ .delay d) → t.seq.hold = s.seq.hold)

/-- R52: over any moves without a reset the trace is only appended to. -/
def Obligations.TraceOnlyGrows : Prop :=
  ∀ (ms : List Move) (s t : State), Move.reset ∉ ms → runMoves ms s = .next t → ∃ es, t.trace = s.trace ++ es

/-- The invariant holds of the state reset leaves, under every valid configuration. It rests on the values log entry 3 chose
for the elements R340 leaves unspecified. -/
def Obligations.ResetMeetsTheInvariant : Prop :=
  ∀ cfg : Config, cfg.valid = true → Inv (State.resetWith cfg)

/-- The invariant (R32, R37 to R48, R112) is kept by every step from every state that meets it, whatever the move. -/
def Obligations.EveryStepKeepsTheInvariant : Prop :=
  ∀ s t : State, Inv s → step s = .next t → Inv t

/-- R320: every hardware step is defined. From a state that meets the invariant no step faults and none is refused. -/
def Obligations.EveryStepIsDefined : Prop :=
  ∀ s : State, Inv s → ∃ t, step s = .next t

/-- R79, R212, R213, R306: while a program runs, over any moves without a reset and however RX and TX interleave, `prog` stays,
`pc` never falls, and the framebuffer and SEQ's events are exactly those of the micro-operations from the old `pc` to the
new, in program order. -/
def Obligations.ProgramRunsUninterrupted : Prop :=
  ∀ (ms : List Move) (s t : State), Inv s → Move.reset ∉ ms → Within ms s → runMoves ms s = .next t →
    t.seq.prog = s.seq.prog ∧ s.seq.pc ≤ t.seq.pc ∧
    (⟨t.fb, seqEvents t.trace⟩ : Played) =
      play s.cfg ((s.seq.prog.drop s.seq.pc).take (t.seq.pc - s.seq.pc)) ⟨s.fb, seqEvents s.trace⟩

/-- R355: from every state that meets the invariant, every fair run in which no byte is offered and no reset comes reaches
quiescence after finitely many moves (what a fair run is: log entry 20); and some finite list of moves without a byte and
without a reset leads there. -/
def Obligations.QuiescenceCanBeReached : Prop :=
  (∀ (m : Nat → Move) (r : Nat → State), Inv (r 0) → FairRun m r → (∀ k b, m k ≠ .rx b) → (∀ k, m k ≠ .reset) →
    ∃ k, Quiescent (r k)) ∧
  ∀ s : State, Inv s → ∃ ms t, Move.reset ∉ ms ∧ offered ms = [] ∧ runMoves ms s = .next t ∧ Quiescent t

/-- R356: under every valid configuration every finite byte sequence has an observation. -/
def Obligations.EveryInputHasAnObservation : Prop :=
  ∀ (cfg : Config) (bytes : List Byte), cfg.valid = true → ∃ tr, Observes cfg bytes tr
end

