-- ==== Sys2Proof/Tests/Slice0.lean ====
section
/-! SUPPORT. Small tests, their expected results from spec/ (the vector or rule is named), and for every statement with
hypotheses a witness that meets them: `witness_<statement>`, one part for each clause. -/

namespace Sys2Proof.Tests

open Sys2Proof.Machine

/-! ## Helpers -/

/-- The next state of an outcome. -/
def next? (o : Host.Outcome State Fault Refusal) : Option State :=
  match o with
  | .next s => some s
  | .fault _ => none
  | .refused _ => none

/-- The refusal of an outcome. -/
def refusal? (o : Host.Outcome State Fault Refusal) : Option Refusal :=
  match o with
  | .next _ => none
  | .fault _ => none
  | .refused r => some r

theorem next_of {o : Host.Outcome State Fault Refusal} {t : State} (h : next? o = some t) : o = .next t := by
  cases o <;> simp_all [next?]

theorem next_exists {o : Host.Outcome State Fault Refusal} (h : (next? o).isSome = true) : ∃ t, o = .next t := by
  cases o <;> simp_all [next?]

/-- The vectors' test configuration `TC`. -/
def tc : Config := { defaultConfig with bootSequence := [] }

/-- A strip of two, branch 1, in `LINE` mode. -/
def two : Config := { tc with n := 2, b := 1, sections := [1, 1] }

/-- The same in `FIXED2` mode. -/
def twoFixed : Config := { two with unitMode := .fixed2 }

/-- A strip of one. -/
def one : Config := { tc with n := 1, b := 0, sections := [1] }

/-- Reset, but SEQ in `st` and TX in `IDLE`. -/
def at_ (cfg : Config) (st : SeqState) : State :=
  { State.resetWith cfg with
    seq := { (State.resetWith cfg).seq with state := st }
    tx := { (State.resetWith cfg).tx with state := .idle } }

/-- SEQ waiting for a command, TX idle. -/
def idle (cfg : Config) : State := at_ cfg .await

/-- SEQ in `DISPATCH` at the first micro-operation of `ops`. -/
def playing (cfg : Config) (ops : List Instr) : State := (at_ cfg .dispatch).load ops

/-- SEQ in `st` with the unit and the decoded command. -/
def holding (cfg : Config) (st : SeqState) (u : CmdUnit) (c : Cmd) : State :=
  { at_ cfg st with seq := { (at_ cfg st).seq with cmdUnit := u, cmd := c } }

/-- TX in `SHIFT` at the start of a frame of the words `ws`. -/
def shifting (cfg : Config) (ws : List WireWord) : State := (idle cfg).handOver ws

/-- The same at another bit and phase, the phase having lasted `d`. -/
def inPhase (cfg : Config) (ws : List WireWord) (pix bit : Nat) (ph : TxPhase) (d : Rat) : State :=
  { shifting cfg ws with
    tx := { (shifting cfg ws).tx with pix := pix, bit := bit, phase := ph, phaseTime := d, dout := ph.level } }

/-- TX in `LATCH`, the line low for `d`. -/
def latched (cfg : Config) (d : Rat) : State :=
  { idle cfg with tx := { (idle cfg).tx with state := .latch, lowTime := d } }

/-! ## Well-formedness: an ill-formed term for each check -/

theorem test_wf_fill_colour : Instr.wf tc (.cmdFill 10) = false ∧ Instr.wf tc (.cmdFill 9) = true := by decide +kernel
theorem test_wf_fill_mode : Instr.wf twoFixed (.cmdFill 1) = false := by decide +kernel
theorem test_wf_dirA : Instr.wf tc (.cmdDirA 10) = false := by decide +kernel
theorem test_wf_dirB : Instr.wf tc (.cmdDirB 0 1) = false ∧ Instr.wf tc (.cmdDirB 10 1) = false ∧
    Instr.wf tc (.cmdDirB 9 10) = false := by decide +kernel
theorem test_wf_get : Instr.wf tc (.get (-1)) = false ∧ Instr.wf tc (.get 12) = false ∧ Instr.wf tc (.get 11) = true := by
  decide +kernel
theorem test_wf_transmit : Instr.wf two (.transmit [0]) = false ∧ Instr.wf two (.transmit [0, 0, 0]) = false := by
  decide +kernel
theorem test_wf_delay : Instr.wf tc (.delay (mkRat (-1) 2)) = false := by decide +kernel
theorem test_wf_patterns : Instr.wf tc (.fillBounce 10) = false ∧ Instr.wf tc (.chaseA 10) = false ∧
    Instr.wf tc (.chaseB 10) = false ∧ Instr.wf tc (.sectionFwd 10) = false ∧ Instr.wf tc (.sectionRev 10) = false := by
  decide +kernel
theorem test_wf_boot : Pattern.wf (.fillBounce 10) = false ∧ Pattern.wf (.chaseA 10) = false ∧
    Pattern.wf (.chaseB 10) = false ∧ Pattern.wf (.sectionFwd 10) = false ∧ Pattern.wf (.sectionRev 10) = false := by
  decide +kernel

/-- R8 to R15, R343: a configuration that breaks each bound. -/
theorem test_invalid_configurations : [
    { tc with n := 0 }, { tc with b := -1 }, { tc with b := 13 }, { tc with sections := [6, 7] },
    { tc with palette := tc.palette.dropLast }, { tc with bootSequence := [.chaseB 10] },
    { tc with t0h := 0 }, { tc with t0h := mkRat 1 1600000 }, { tc with t1h := mkRat 1 1600000 },
    { tc with t1h := mkRat 1 800000 }, { tc with tLatch := 0 }, { tc with jitter := mkRat (-1) 100 },
    { tc with jitter := mkRat 1 10 }, { tc with tChase := mkRat 1 101 }, { tc with tChase := mkRat 1 10 },
    { tc with tSection := 0 }, { tc with tRainbow := mkRat (-1) 100 }].all (fun c => !c.valid) = true := by decide +kernel

theorem test_valid_configurations : [defaultConfig, tc, two, twoFixed, one, { tc with b := 0 }, { tc with b := 12 },
    { tc with sections := [] }, { tc with jitter := 0 }, { tc with tChase := mkRat 1 100 }, { tc with tRainbow := 0 },
    { tc with brightness := mkRat 3 2 }, { tc with bootSequence := directionalSweep }].all Config.valid = true := by
  decide +kernel

/-! ## Decoding: words written out from R101, R102 and the vectors V-C1 to V-C3 -/

/-- "7": `0011` and the digit `0111`. -/
theorem test_decode_fill : decodeTableWord 8 0b00110111 = some (.cmdFill 7) := by decide +kernel

/-- "05" is `0x3035` (V-C3). -/
theorem test_decode_dirA : decodeTableWord 16 0b0011000000110101 = some (.cmdDirA 5) := by decide +kernel

/-- "95" is `0x3935` (V-C3). -/
theorem test_decode_dirB : decodeTableWord 16 0b0011100100110101 = some (.cmdDirB 9 5) := by decide +kernel

/-- V-C1's and V-C3's malformed units. -/
theorem test_decode_malformed : [CmdUnit.bytes [], .bytes [0x78], .bytes [0x3A], .bytes [0x31, 0x78], .bytes [0x20, 0x32],
    .bytes [0x32, 0x0D], .bytes [0x31, 0x32, 0x33], .bytes [0x3A, 0x35], .bytes [0x2F], .overflow].all (fun u =>
      match decode .line u with
      | .error (.malformedCommand v) => decide (v = u)
      | .error (.outOfRangeIndex _) => false
      | .ok _ => false) = true := by decide +kernel

/-- A one-byte unit is no command in `FIXED2` mode (R266). -/
theorem test_fixed2_has_no_fill : parse .fixed2 (.bytes [0x32]) = .invalid := by decide +kernel

theorem test_encode : encode (.cmdFill 2) = some [0x32] ∧ encode (.cmdDirA 0) = some [0x30, 0x30] ∧
    encode (.cmdDirB 1 9) = some [0x31, 0x39] ∧ encode (.set 0 Pixel.black) = none := by decide +kernel

/-! ## A placed instruction runs in the next step -/

theorem test_fetch_fill : (next? (step (State.reset.withFetchWord 8 0x37))).map (fun t => (t.seq.prog, t.seq.pc, t.fb)) =
    some (defaultConfig.fillBounceOps ⟨255, 128, 0⟩, 0, List.replicate 12 Pixel.black) := by decide +kernel

theorem test_fetch_dirA : (next? (step (State.reset.withFetchWord 16 0x3033))).map (fun t => (t.seq.prog, t.seq.pc)) =
    some (defaultConfig.chaseAOps ⟨0, 0, 255⟩, 0) := by decide +kernel

theorem test_fetch_dirB : (next? (step (State.reset.withFetchWord 16 0x3139))).map (fun t => (t.seq.prog, t.seq.pc)) =
    some (defaultConfig.chaseBOps ⟨16, 32, 64⟩, 0) := by decide +kernel

/-! ## One step of each instruction -/

/-- R270: "2\n" plays FILL_BOUNCE(2) in RED: 7 steps of 6 micro-operations, the first SET 4. -/
theorem test_cmdFill : (next? (exec (.cmdFill 2) (idle tc))).map (fun t => (t.seq.prog.length, t.seq.prog.head?)) =
    some (42, some (.set 4 ⟨255, 0, 0⟩)) := by decide +kernel

/-- R272: the forward chase, sectioned under `CHASE_MODE = SECTION`. -/
theorem test_cmdDirA : (next? (exec (.cmdDirA 3) (idle { tc with chaseMode := .sectioned }))).map
    (fun t => (t.seq.prog.length, t.seq.prog[3]?)) = some (30, some .render) := by decide +kernel

/-- V-A2: "19" plays CHASE_B(9); its first SET is position 7. -/
theorem test_cmdDirB : (next? (exec (.cmdDirB 1 9) (idle tc))).map (fun t => (t.seq.prog.length, t.seq.prog.head?)) =
    some (42, some (.set 7 ⟨16, 32, 64⟩)) := by decide +kernel

/-- V-B1. -/
theorem test_set_last : (next? (exec (.set 11 ⟨255, 0, 0⟩) (idle tc))).map
    (fun t => (t.readFB 11, t.readFB 10, t.trace, t.seq.pc)) = some (some ⟨255, 0, 0⟩, some ⟨0, 0, 0⟩, [], 1) := by
  decide +kernel

/-- V-B2. -/
theorem test_set_outside : (next? (exec (.set (-1) ⟨1, 1, 1⟩) (idle tc))).map (fun t => (t.fb, t.trace, t.seq.pc)) =
    some ((idle tc).fb, [.err 3 (.position (-1))], 1) := by decide +kernel

/-- V-B3. -/
theorem test_fill : (next? (exec (.fill ⟨7, 8, 9⟩) (idle two))).map (fun t => (t.fb, t.trace, t.tx.state)) =
    some ([⟨7, 8, 9⟩, ⟨7, 8, 9⟩], [], .idle) := by decide +kernel

/-- V-A5. -/
theorem test_get : (next? (runOps [.set 3 ⟨1, 2, 3⟩, .render, .get 3] (idle { tc with brightness := mkRat 1 2 }))).map
    (fun t => t.seq.result) = some (.pixel ⟨1, 2, 3⟩) := by decide +kernel

/-- V-B4. -/
theorem test_get_outside : refusal? (exec (.get 12) (idle tc)) = some (.getOutOfRange 12) := by decide +kernel

/-- R162's example, and V-S2's for half brightness. -/
theorem test_scale : frameOf { two with brightness := 1 } [⟨0x12, 0x34, 0x56⟩, ⟨0, 0, 0⟩] = [0x341256, 0] ∧
    frameOf { two with brightness := mkRat 1 2 } [⟨255, 128, 1⟩, ⟨0, 0, 0⟩] = [0x407F00, 0] := by decide +kernel

/-- V-S1, V-S3. -/
theorem test_scale_exactly : scaleChannel 100 (mkRat 29 100) = 29 ∧ scaleChannel 101 (mkRat 1 3) = 33 ∧
    factor { tc with brightness := mkRat 3 2 } = 1 ∧ factor { tc with brightness := mkRat (-1) 4 } = 0 := by decide +kernel

/-- R181. -/
theorem test_transmit : (next? (exec (.transmit [0x00FF00]) (idle one))).map
    (fun t => (t.tx.state, t.tx.dout, t.tx.bit, t.trace)) = some (.shift, .high, 23, [.frame [0x00FF00]]) := by
  decide +kernel

/-- V-T4: a frame reached in `LATCH` holds. -/
theorem test_transmit_holds : (next? (exec (.transmit [0x00FF00]) (latched one 0))).map
    (fun t => (t.seq.hold, t.seq.pc, t.trace)) = some (.txBusy, 0, []) := by decide +kernel

/-- R210's example. -/
theorem test_render : (next? (exec .render { idle two with fb := [⟨255, 0, 0⟩, ⟨0, 0, 0⟩] })).map (fun t => t.trace) =
    some [.frame [0x00FF00, 0x000000]] := by decide +kernel

/-- R211: reached at time 0, held; held from 0 and now 1/50, complete. -/
theorem test_delay : (next? (exec (.delay (mkRat 1 50)) (idle two))).map (fun t => (t.seq.hold, t.seq.pc)) =
      some (.delay 0 (mkRat 1 50), 0) ∧
    (next? (exec (.delay (mkRat 1 50)) { (idle two).holdFor (.delay 0 (mkRat 1 50)) with now := mkRat 1 50 })).map
      (fun t => (t.seq.hold, t.seq.pc)) = some (.none, 1) := by decide +kernel

/-- V-P7: `N = 1`, `B = 0`, FILL_BOUNCE. -/
theorem test_fillBounce : (playFromBlack one (one.expand (.fillBounce 2))).events =
    [.err 3 (.position (-1)), .frame [0x00FF00], .err 3 (.position (-1)), .frame [0]] := by decide +kernel

/-- V-P2's first step: a delay after the lit frame, then the clear rendered. -/
theorem test_chaseA : ({ two with clearRender := true } : Config).expand (.chaseA 2) =
    [.set 0 ⟨255, 0, 0⟩, .set 1 ⟨255, 0, 0⟩, .render, .delay (mkRat 1 50), .set 0 ⟨0, 0, 0⟩, .set 1 ⟨0, 0, 0⟩, .render] := by
  decide +kernel

/-- V-P7: `N = 4`, `B = 0`, CHASE_B, its first three events. -/
theorem test_chaseB : (playFromBlack { tc with n := 4, b := 0, sections := [] }
    (({ tc with n := 4, b := 0, sections := [] } : Config).expand (.chaseB 2))).events.take 3 =
    [.err 3 (.position 4), .frame [0, 0, 0, 0x00FF00], .err 3 (.position 4)] := by decide +kernel

/-- V-P5. -/
theorem test_sectionFwd : framesIn (playFromBlack { tc with n := 4, sections := [1, 2] }
    (({ tc with n := 4, sections := [1, 2] } : Config).expand (.sectionFwd 2))).events =
    [[0x00FF00, 0, 0, 0], [0, 0x00FF00, 0x00FF00, 0]] := by decide +kernel

/-- V-P6. -/
theorem test_sectionRev : framesIn (playFromBlack { tc with n := 4, sections := [1, 2] }
    (({ tc with n := 4, sections := [1, 2] } : Config).expand (.sectionRev 2))).events =
    [[0, 0x00FF00, 0x00FF00, 0], [0x00FF00, 0, 0, 0]] := by decide +kernel

/-- V-W1. -/
theorem test_wheel : [0, 1, 84, 85, 86, 169, 170, 171, 254].map wheel =
    [⟨255, 0, 0⟩, ⟨252, 3, 0⟩, ⟨3, 252, 0⟩, ⟨0, 255, 0⟩, ⟨0, 252, 3⟩, ⟨0, 3, 252⟩, ⟨0, 0, 255⟩, ⟨3, 0, 252⟩, ⟨252, 0, 3⟩] := by
  decide +kernel

/-- V-W2: the first three SETs of step 0, `N = 12`. -/
theorem test_rainbow : (tc.rainbowStep 0).take 3 = [.set 0 ⟨255, 0, 0⟩, .set 1 ⟨192, 63, 0⟩, .set 2 ⟨129, 126, 0⟩] := by
  decide +kernel

/-! ## The agents -/

/-- V-R1, with R342's boot program empty. -/
theorem test_reset : (State.resetWith tc).seq.state = .boot ∧ (State.resetWith tc).tx.state = .latch ∧
    (State.resetWith tc).seq.pc = 0 ∧ (State.resetWith tc).trace = [] := by decide +kernel

/-- R347: ten fill-bounces of 42 micro-operations, 140 RENDERs. -/
theorem test_boot_program : State.reset.seq.prog.length = 420 ∧ State.reset.seq.prog.count .render = 140 := by
  decide +kernel

/-- V-R2: SEQ's first step of an empty boot. -/
theorem test_empty_boot : (next? (act .seq (State.resetWith tc))).map (fun t => t.seq.state) = some .await := by
  decide +kernel

/-- V-C1: "19\r\n" is the unit "19". -/
theorem test_crlf : (next? (runMoves [.rx 0x31, .rx 0x39, .rx 0x0D, .rx 0x0A] (idle two))).map
    (fun t => (t.seq.state, t.seq.cmdUnit, t.rx.buf)) = some (.parse, .bytes [0x31, 0x39], []) := by decide +kernel

/-- V-C1: four bytes before the LF are `Overflow`. -/
theorem test_overflow : (next? (runMoves [.rx 0x31, .rx 0x39, .rx 0x0D, .rx 0x0D, .rx 0x0A] (idle two))).map
    (fun t => t.seq.cmdUnit) = some .overflow := by decide +kernel

/-- V-C4: a late unit is dropped. -/
theorem test_late_unit : (next? (runMoves [.rx 0x33, .rx 0x0A] (playing two [.render]))).map
    (fun t => (t.trace, t.seq.state)) = some ([.dropped (.bytes [0x33])], .dispatch) := by decide +kernel

/-- V-A4: "x\n" gives one MalformedCommand event and SEQ awaits. -/
theorem test_malformed : (next? (runMoves [.rx 0x78, .rx 0x0A, .seq, .seq] (idle two))).map
    (fun t => (t.trace, t.seq.state)) = some ([.err 1 (.unit (.bytes [0x78]))], .await) := by decide +kernel

/-- V-T5: the snapshot is not reached by a later SET. -/
theorem test_snapshot : (next? (runOps [.set 0 ⟨255, 0, 0⟩, .render, .set 0 ⟨0, 0, 255⟩] (idle one))).map
    (fun t => t.tx.frame) = some [0x00FF00] := by decide +kernel

/-! ## Witnesses: states and operands that meet each statement's hypotheses, clause by clause -/

theorem witness_ResetLeavesTheTable :
    (∃ s t : State, t = State.resetWith s.cfg) ∧
    (∃ t, act .reset (shifting two [0xFFFFFF, 1]) = .next t) :=
  ⟨⟨State.reset, _, rfl⟩, next_exists (by decide +kernel)⟩

theorem witness_InvalidConfigurationIsRefused :
    defaultConfig.valid = true ∧ (idle { tc with n := 0 }).cfg.valid = false := by decide +kernel

theorem witness_ConfigurationIsNeverWritten :
    ∃ t, step { State.reset with agenda := [.seq] } = .next t := next_exists (by decide +kernel)

theorem witness_DecodeOfEncodeIsTheCommand :
    (Instr.wf tc (.cmdFill 9) = true ∧ encode (.cmdFill 9) = some [0x39]) ∧
    (Instr.wf twoFixed (.cmdDirA 0) = true ∧ encode (.cmdDirA 0) = some [0x30, 0x30]) ∧
    (Instr.wf twoFixed (.cmdDirB 9 9) = true ∧ encode (.cmdDirB 9 9) = some [0x39, 0x39]) := by decide +kernel

theorem witness_EncodeOfDecodeIsTheUnit :
    decode .line (.bytes [0x30]) = .ok (.cmdFill 0) ∧ decode .fixed2 (.bytes [0x31, 0x30]) = .ok (.cmdDirB 1 0) :=
  ⟨rfl, rfl⟩

theorem witness_LineByteStep :
    ((idle two).cfg.unitMode = .line ∧ (idle two).rx.buf.length < 3) ∧
    ({ idle two with rx := { (idle two).rx with buf := [1, 2] } } : State).rx.buf.length < 3 ∧
    3 ≤ ({ idle two with rx := { (idle two).rx with buf := [1, 2, 3] } } : State).rx.buf.length ∧
    (0x0B#8 : Byte) ≠ 0x0A#8 := by decide +kernel

theorem witness_LineIsDeliveredAsOneUnit :
    (idle two).cfg.unitMode = .line ∧ (idle two).rx.buf = [] ∧ (idle two).rx.ovf = false ∧
    (0x0A#8 : Byte) ∉ ([0x31, 0x39, 0x0D] : List Byte) ∧ (0x0A#8 : Byte) ∉ ([0x31, 0x39, 0x0D, 0x0D] : List Byte) := by
  decide +kernel

theorem witness_Fixed2BytesPairUp :
    ((idle twoFixed).cfg.unitMode = .fixed2 ∧ (idle twoFixed).rx.have_ = false) ∧
    (∃ s : State, s.cfg.unitMode = .fixed2 ∧ s.rx.have_ = true) ∧
    Move.reset ∉ [Move.rx 0x31, .seq, .rx 0x39, .rx 0x30] ∧
    ∃ t, runMoves [.rx 0x31, .seq, .rx 0x39, .rx 0x30] (idle twoFixed) = .next t ∧ t.rx.have_ = true :=
  ⟨by decide +kernel, ⟨{ idle twoFixed with rx := ⟨[], false, 0x31, true⟩ }, by decide +kernel⟩, by decide +kernel,
    _, rfl, rfl⟩

theorem witness_DeliveryAcceptsOrDrops : (idle two).seq.state = .await ∧ (at_ two .parse).seq.state ≠ .await := by
  decide +kernel

theorem witness_BusyInputIsDropped : (at_ two .validate).seq.state ≠ .await ∧
    ∃ t, runMoves (([0x32, 0x0A, 0x33] : List Byte).map Move.rx) (at_ two .validate) = .next t :=
  ⟨by decide +kernel, next_exists (by decide +kernel)⟩

theorem witness_ParseStepRule : (at_ two .parse).seq.state = .parse ∧
    (holding two .parse .overflow .invalid).seq.cmdUnit = .overflow ∧
    (holding two .parse (.bytes [0x31, 0x32, 0x33]) .invalid).seq.cmdUnit = .bytes [0x31, 0x32, 0x33] ∧
    (holding twoFixed .parse (.bytes [0x39]) .invalid).seq.cmdUnit = .bytes [0x39] ∧
    (holding two .parse (.bytes [0x39, 0x3A]) .invalid).seq.cmdUnit = .bytes [0x39, 0x3A] := by decide +kernel

theorem witness_ValidateStepRule :
    (holding two .validate (.bytes []) .invalid).seq.state = .validate ∧
    (holding two .validate (.bytes []) .invalid).seq.cmd = .invalid ∧
    ((holding two .validate (.bytes []) (.fill 10)).seq.cmd = .fill 10 ∧ 9 < 10) ∧
    ((holding two .validate (.bytes []) (.directional 1 9)).seq.cmd = .directional 1 9 ∧ 9 ≤ 9) := by decide +kernel

theorem witness_MalformedUnitIsIgnored :
    (holding two .parse (.bytes [0x3A]) .invalid).seq.state = .parse ∧
    decode two.unitMode (.bytes [0x3A]) = .error (.malformedCommand (.bytes [0x3A])) := ⟨by decide +kernel, rfl⟩

theorem witness_CommandsLoadTheirPattern : (idle two).cfg.palette.length = 10 ∧ 9 ≤ 9 := by decide +kernel

theorem witness_DirectionIsClamped : 1 ≤ 1 ∧ 9 ≤ 9 := by decide

/-- Both unit modes, the digits' least and greatest values, with and without CR. -/
theorem witness_SentCommandRuns :
    ((idle two).seq.state = .await ∧ (idle two).rx.buf = [] ∧ (idle two).rx.ovf = false ∧ (idle two).rx.have_ = false) ∧
    (Instr.wf two (.cmdFill 0) = true ∧ encode (.cmdFill 0) = some [0x30] ∧ two.unitMode = .line ∧
      ([0x0D#8] : List Byte) = [0x0D#8]) ∧
    (Instr.wf twoFixed (.cmdDirB 1 9) = true ∧ encode (.cmdDirB 1 9) = some [0x31, 0x39] ∧
      (idle twoFixed).rx.have_ = false) := by decide +kernel

theorem witness_StepRunsTheInstruction :
    (idle two).cfg.valid = true ∧ ({ playing two [.render] with agenda := [.seq] } : State).agenda = .seq :: [] ∧
    (playing two [.render]).running = true ∧ (playing two [.render]).seq.prog[(playing two [.render]).seq.pc]? = some .render ∧
    ∃ s : State, s.cfg.valid = true ∧ s.agenda = .seq :: [] ∧ s.seq.state = .dispatch ∧ s.seq.loadPending = true ∧
      s.seq.cmd.instr? = some (.cmdFill 7) :=
  ⟨by decide +kernel, by decide +kernel, by decide +kernel, by decide +kernel,
    State.reset.withFetchWord 8 0x37, by decide +kernel⟩

theorem witness_StepsAreTheAgendasMoves : (idle two).cfg.valid = true := by decide +kernel

theorem witness_CompletedProgramAwaits :
    ((playing two []).running = true ∧ (playing two []).seq.pc = (playing two []).seq.prog.length) ∧
    ((at_ two .boot).running = true ∧ (at_ two .boot).seq.pc = (at_ two .boot).seq.prog.length) ∧
    ((idle two).seq.state = .await ∧ (idle twoFixed).seq.state = .await) ∧
    (∃ t, act .reset (idle two) = .next t ∧ t.seq ≠ (idle two).seq) ∧
    (∃ t, act (.rx 0x0A) (idle two) = .next t ∧ t.seq ≠ (idle two).seq) ∧
    ∃ s t, s.seq.state = .await ∧ s.cfg.unitMode = .fixed2 ∧ act (.rx 0x39) s = .next t ∧ t.seq ≠ s.seq :=
  ⟨by decide +kernel, by decide +kernel, by decide +kernel, ⟨_, rfl, by decide +kernel⟩, ⟨_, rfl, by decide +kernel⟩,
    { idle twoFixed with rx := ⟨[], false, 0x31, true⟩ }, _, rfl, rfl, rfl, by decide +kernel⟩

/-- R264: a byte that completes no unit leaves SEQ in `AWAIT` as it was. -/
theorem test_await : (next? (act (.rx 0x31) (idle two))).map (fun t => t.seq) = some (idle two).seq ∧
    next? (act .seq (idle two)) = some (idle two) := by decide +kernel

/-- In range at 0 and `N - 1`, out of range at -1 and `N`. -/
theorem witness_SetWritesOrSkips : Memory.wf (idle two).cfg.n (idle two).fb = true ∧
    ((0 : Int) ≤ 0 ∧ (0 : Int) ≤ ((idle two).cfg.n : Int) - 1) ∧ (1 : Int) ≤ ((idle two).cfg.n : Int) - 1 ∧
    (-1 : Int) < 0 ∧ ((idle two).cfg.n : Int) - 1 < 2 := by decide +kernel

theorem witness_FillWritesEveryEntry : 1 < (idle two).cfg.n := by decide +kernel

theorem witness_GetReadsOrIsRefused : Memory.wf (idle two).cfg.n (idle two).fb = true ∧
    ((0 : Int) ≤ 0 ∧ (0 : Int) ≤ ((idle two).cfg.n : Int) - 1) ∧ (1 : Int) ≤ ((idle two).cfg.n : Int) - 1 ∧
    (-1 : Int) < 0 ∧ ((idle two).cfg.n : Int) - 1 < 2 := by decide +kernel

theorem witness_GetAfterSetReturnsThePixel : Memory.wf (idle two).cfg.n (idle two).fb = true ∧ 1 < (idle two).cfg.n ∧
    (∀ i ∈ [Instr.render, .set 0 ⟨9, 9, 9⟩], i.isMicro = true) ∧
    (∀ px', Instr.set (1 : Nat) px' ∉ [Instr.render, .set 0 ⟨9, 9, 9⟩]) ∧
    (∀ px', Instr.fill px' ∉ [Instr.render, .set 0 ⟨9, 9, 9⟩]) ∧
    ∃ u, runOps [.set (1 : Nat) ⟨1, 2, 3⟩, .render, .set 0 ⟨9, 9, 9⟩] (idle two) = .next u :=
  ⟨by decide +kernel, by decide +kernel, by decide +kernel, by simp, by simp, next_exists (by decide +kernel)⟩

theorem witness_ChannelScalesByExactFloor : (0 : Rat) ≤ mkRat 1 3 ∧ mkRat 1 3 ≤ 1 := by decide +kernel

theorem witness_ScaleReturnsTheFrame : Memory.wf (idle two).cfg.n (idle two).fb = true ∧
    (idle two).readFB 1 = some ⟨0, 0, 0⟩ := by decide +kernel

theorem witness_ScaleIdentityAndZero :
    (frameOf two [⟨0x12, 0x34, 0x56⟩, ⟨1, 2, 3⟩])[1]? = some 0x020103 ∧
    ([⟨0x12, 0x34, 0x56⟩, ⟨1, 2, 3⟩] : Memory)[1]? = some ⟨1, 2, 3⟩ ∧ factor two = 1 ∧
    (frameOf { two with brightness := 0 } [⟨255, 255, 255⟩, ⟨1, 2, 3⟩])[0]? = some 0 ∧
    factor { two with brightness := 0 } = 0 := by decide +kernel

theorem witness_ScalingIsMonotone : ((0 : Rat) ≤ mkRat 1 2 ∧ mkRat 1 2 ≤ 1 ∧ (1 : Rat) ≤ 1) ∧
    (0#8).toNat ≤ (255#8).toNat ∧ ∀ x : Byte, scaleChannel x 1 = x :=
  ⟨by decide +kernel, by decide, by decide +kernel⟩

theorem witness_TransmitHandsOverOrHolds : (idle two).tx.state = .idle ∧ (latched two 0).tx.state ≠ .idle := by
  decide +kernel

/-- A "0" symbol's high phase at its least duration, and just below it. -/
theorem witness_HighPhaseEnds :
    (shifting one [0]).tx.state = .shift ∧ (shifting one [0]).tx.phase = .high ∧ (shifting one [0]).tx.frame[0]? = some 0 ∧
    (one.t0h * (1 - one.jitter) ≤ mkRat 19 64000000 ∧ mkRat 19 64000000 ≤ one.t0h * (1 + one.jitter)) ∧
    ¬ (one.t0h * (1 - one.jitter) ≤ mkRat 18 64000000 ∧ mkRat 18 64000000 ≤ one.t0h * (1 + one.jitter)) := by decide +kernel

/-- The last bit of the frame, a bit above 0, bit 0 of a word that is not the last; nominal and zero durations. -/
theorem witness_LowPhaseEnds :
    ((inPhase two [0, 0] 1 0 .low 0).tx.state = .shift ∧ (inPhase two [0, 0] 1 0 .low 0).tx.phase = .low ∧
      (inPhase two [0, 0] 1 0 .low 0).tx.frame[1]? = some 0 ∧ (inPhase two [0, 0] 1 0 .low 0).tx.pix < two.n) ∧
    (inPhase two [0, 0] 1 1 .low 0).tx.bit = 1 ∧
    ((inPhase two [0, 0] 0 0 .low 0).tx.pix = 0 ∧ (inPhase two [0, 0] 0 0 .low 0).tx.bit = 0) ∧
    ((two.tBit - two.t0h) * (1 - two.jitter) ≤ two.tBit - two.t0h ∧
      two.tBit - two.t0h ≤ (two.tBit - two.t0h) * (1 + two.jitter)) ∧
    ¬ ((two.tBit - two.t0h) * (1 - two.jitter) ≤ 0 ∧ 0 ≤ (two.tBit - two.t0h) * (1 + two.jitter)) := by decide +kernel

theorem witness_LatchGapAndIdle : (latched two 0).tx.state = .latch ∧ (0 : Rat) ≤ 0 ∧
    two.tLatch ≤ (latched two two.tLatch).tx.lowTime ∧ (latched two 0).tx.lowTime < two.tLatch ∧
    (idle two).tx.state = .idle ∧ (idle two).tx.state ≠ .shift ∧ mkRat (-1) 2 < 0 := by decide +kernel

/-- In `SHIFT`, the high phase of a "1": a time up to the longest it may last, one past it, a negative one; and the low phase
of a "0" up to its longest. -/
theorem witness_LatchGapAndIdle_shift :
    ((shifting one [0x800000]).tx.state = .shift ∧ (shifting one [0x800000]).tx.frame[0]? = some 0x800000 ∧
      (0x800000#24).getLsbD 23 = true ∧ (shifting one [0x800000]).tx.phase = .high) ∧
    (0 ≤ one.t1h * (1 + one.jitter) ∧ (shifting one [0x800000]).tx.phaseTime + one.t1h * (1 + one.jitter) ≤
      one.t1h * (1 + one.jitter)) ∧
    one.t1h * (1 + one.jitter) < (shifting one [0x800000]).tx.phaseTime + one.tBit ∧ mkRat (-1) 2 < 0 ∧
    ((inPhase one [0] 0 23 .low 0).tx.phase ≠ .high ∧ 0 ≤ (one.tBit - one.t0h) * (1 + one.jitter)) := by decide +kernel

/-- V-T3's upper bound: with `JITTER = 1/20` a "0"'s high phase may last 1.05 T0H and no longer. -/
theorem test_tick_in_shift :
    (next? (act (.tick (mkRat 21 64000000)) (shifting one [0]))).map (fun t => t.tx.phaseTime) = some (mkRat 21 64000000) ∧
    (next? (act (.tick (mkRat 22 64000000)) (shifting one [0]))).map (fun t => t.tx.phaseTime) = some 0 := by
  decide +kernel

/-- TX's own step, time, a reset, a hand-over. -/
theorem witness_WireIsDrivenOnlyByTx :
    (∃ t, act .tx (latched two two.tLatch) = .next t ∧ t.tx ≠ (latched two two.tLatch).tx) ∧
    (∃ t, act (.tick 1) (latched two 0) = .next t ∧ t.tx ≠ (latched two 0).tx) ∧
    (∃ t, act .reset (idle two) = .next t ∧ t.tx ≠ (idle two).tx) ∧
    (∃ t, act .seq (playing two [.render]) = .next t ∧ t.tx ≠ (playing two [.render]).tx) :=
  ⟨⟨_, rfl, by decide +kernel⟩, ⟨_, rfl, by decide +kernel⟩, ⟨_, rfl, by decide +kernel⟩, ⟨_, rfl, by decide +kernel⟩⟩

/-- The start of a one-word frame meets the invariant. -/
theorem frame_start_inv : Inv (shifting one [0x00FF00]) where
  cfg := by decide +kernel
  memory := by decide +kernel
  seq :=
    { pc := by decide +kernel, prog := by decide +kernel, finished := by decide +kernel, hold := trivial, cmd := trivial,
      pending := by decide +kernel, parsed := by decide +kernel }
  rx := { buf := by decide +kernel, ovf := by decide +kernel }
  tx :=
    { frame := by decide +kernel, pix := by decide +kernel, bit := by decide +kernel, line := by decide +kernel,
      phaseTime := fun _ => ⟨by decide +kernel, by decide +kernel⟩, lowTime := by decide +kernel }
  now := by decide +kernel
  frames := by simp [shifting, idle, at_, State.handOver, State.resetWith, one, tc]

/-- The moves that send bit `x` with nominal durations. -/
def sendBit (x : Bool) : List Move :=
  [.tick (highTime one x), .tx, .tick (one.tBit - highTime one x), .tx]

/-- The moves that send the word `0x00FF00` and keep the latch gap. -/
def sendWord : List Move :=
  (List.range 24).flatMap (fun j => sendBit ((0x00FF00#24).getLsbD (23 - j))) ++ [.tick one.tLatch, .tx]

theorem witness_WireCarriesTheFrame : FrameStart (shifting one [0x00FF00]) ∧ Move.reset ∉ sendWord ∧
    (∃ t, runMoves (sendWord.take 96) (shifting one [0x00FF00]) = .next t ∧ t.tx.state ≠ .shift) ∧
    ∃ t, runMoves sendWord (shifting one [0x00FF00]) = .next t ∧ t.tx.state = .idle := by
  have get : ∀ {o : Host.Outcome State Fault Refusal} {p : State → Bool}, (next? o).any p = true →
      ∃ t, o = .next t ∧ p t = true := by
    intro o p h
    cases o <;> simp_all [next?]
  have h1 := get (o := runMoves (sendWord.take 96) (shifting one [0x00FF00])) (p := fun t => decide (t.tx.state ≠ .shift))
    (by decide +kernel)
  have h2 := get (o := runMoves sendWord (shifting one [0x00FF00])) (p := fun t => decide (t.tx.state = .idle))
    (by decide +kernel)
  refine ⟨⟨rfl, rfl, rfl, rfl, rfl⟩, by decide +kernel, ?_, ?_⟩
  · simpa using h1
  · simpa using h2

theorem witness_HandOversAreSpaced : Inv (shifting one [0x00FF00]) ∧ FrameStart (shifting one [0x00FF00]) ∧
    Move.reset ∉ sendWord ∧ ∃ t, runMoves sendWord (shifting one [0x00FF00]) = .next t ∧ t.tx.state = .idle :=
  ⟨frame_start_inv, witness_WireCarriesTheFrame.1, witness_WireCarriesTheFrame.2.1, witness_WireCarriesTheFrame.2.2.2⟩

/-- A wire record of one high phase and one latch gap, and a step. -/
theorem witness_WirePhasesStayInTolerance :
    ∃ s t : State, s.wire = [(.high, one.t0h), (.low, one.tLatch)] ∧ (∀ p ∈ s.wire, PulseOk s.cfg p) ∧ step s = .next t := by
  refine ⟨{ idle one with wire := [(.high, one.t0h), (.low, one.tLatch)], agenda := [.seq] }, _, rfl, ?_, rfl⟩
  intro p hp
  rcases List.mem_cons.1 hp with rfl | hp
  · exact ⟨false, by decide +kernel, by decide +kernel⟩
  · rw [List.mem_singleton.1 hp]
    exact .inr (by decide +kernel)

/-- From reset, and from a reset in the middle of a frame. -/
theorem witness_FirstFrameFollowsTheLatchGap : Move.reset ∉ [Move.tick tc.tLatch, .tx] ∧
    (∃ t, runMoves [.tick tc.tLatch, .tx] (State.resetWith tc) = .next t ∧ t.tx.state ≠ .latch) ∧
    ∃ t, runMoves [.reset, .tick one.tLatch, .tx] (shifting one [0x00FF00]) = .next t ∧ t.tx.state ≠ .latch :=
  ⟨by decide, ⟨_, rfl, by decide +kernel⟩, _, rfl, by decide +kernel⟩

theorem witness_RenderTransmitsTheScaledFrame : (idle two).tx.state = .idle ∧ (shifting two [1, 2]).tx.state ≠ .idle := by
  decide +kernel

/-- `t = 0`, `t > 0`, held and early, held to the very end. -/
theorem witness_DelayHoldsThenCompletes :
    (idle two).seq.hold = .none ∧ (0 : Rat) < mkRat 1 50 ∧
    (((idle two).holdFor (.delay 0 (mkRat 1 50))).seq.hold = .delay 0 (mkRat 1 50) ∧ (idle two).now < 0 + mkRat 1 50) ∧
    (0 : Rat) + mkRat 1 50 ≤ ({ (idle two).holdFor (.delay 0 (mkRat 1 50)) with now := mkRat 1 50 } : State).now := by
  decide +kernel

theorem witness_PatternsLoadTheirExpansion : (idle two).cfg.palette.length = 10 ∧ 9 ≤ 9 := by decide +kernel

/-- The first step and the last of each pattern. -/
theorem witness_PairPatternsUnroll : tc.palette.getD 2 ⟨0, 0, 0⟩ = ⟨255, 0, 0⟩ ∧ 0 = (if tc.clearRender then 1 else 0) ∧
    (((0 : Nat) : Int) < tc.n - tc.b ∧ ((6 : Nat) : Int) < tc.n - tc.b) ∧
    (tc.sections[0]? = some 3 ∧ tc.sections[2]? = some 5 ∧ ∃ sets : Pixel → List Instr,
      ∀ q, sets q = (List.range 5).map fun p => .set (((tc.sections.take 2).sum + p : Nat) : Int) q) ∧
    0 < 255 ∧ 254 < 255 :=
  ⟨by decide +kernel, by decide +kernel, by decide +kernel, ⟨by decide +kernel, by decide +kernel, _, fun _ => rfl⟩,
    by decide, by decide⟩

/-- R220's and R224's pseudocode: the DELAY stands after the RENDER and before the clear. -/
theorem test_section_step : (two.sectionStep ⟨1, 2, 3⟩ 1) =
    [.set 1 ⟨1, 2, 3⟩, .render, .delay (mkRat 1 50), .set 1 ⟨0, 0, 0⟩] := by decide +kernel

theorem witness_PatternSizes : tc.valid = true ∧ ((7 : Nat) : Int) = tc.n - tc.b ∧ 3 = tc.sections.length ∧
    12 = tc.sections.sum ∧ 0 = (if tc.clearRender then 1 else 0) := by decide +kernel

theorem witness_PairPatternFrames : tc.valid = true ∧ ({ tc with clearRender := true } : Config).valid = true ∧
    ({ tc with b := 0 } : Config).valid = true ∧ ({ tc with b := 12 } : Config).valid = true ∧ 9 ≤ 9 := by decide +kernel

theorem witness_SectionPatternFrames : tc.valid = true ∧ 9 ≤ 9 ∧ ∃ lit : Nat → List (List WireWord),
    ∀ k, lit k = litFrame tc (tc.colour 9) (fun q => decide (((tc.sections.take k).sum : Int) ≤ q) &&
      decide (q < ((tc.sections.take (k + 1)).sum : Int))) :: if tc.clearRender then [darkFrame tc] else [] :=
  ⟨by decide +kernel, by decide, _, fun _ => rfl⟩

theorem witness_WheelRamps : (0 ≤ 254 ∧ 0 < 85) ∧ 84 < 85 ∧ (85 ≤ 85 ∧ 85 < 170) ∧ 169 < 170 ∧ 170 ≤ 170 ∧ 254 ≤ 254 := by
  decide

theorem witness_RainbowFrames : one.valid = true ∧ Memory.wf one.n [⟨1, 2, 3⟩] = true := by decide +kernel

theorem witness_ChasesMirrorEachOther : tc.valid = true ∧ 9 ≤ 9 := by decide +kernel

/-- Both ends of the lit range, with `2B <= N` and with `2B > N` (V-P8). -/
theorem witness_FillBounceLightsAndClears :
    (tc.valid = true ∧ 1 ≤ (tc.n : Int) - tc.b ∧ max 0 (2 * tc.b - tc.n) ≤ ((0 : Nat) : Int) ∧ 11 < tc.n) ∧
    (({ tc with b := 8 } : Config).valid = true ∧ 1 ≤ (12 : Int) - 8 ∧ max 0 (2 * (8 : Int) - 12) ≤ ((4 : Nat) : Int)) := by
  decide +kernel

theorem witness_PatternsLeaveBlack : tc.valid = true ∧ Pattern.sectionRev 9 ≠ .rainbow := by decide +kernel

/-- An instruction that answers a next state for each clause's exceptions and for none of them. -/
theorem witness_InstructionFrames :
    (∃ t, exec (.cmdFill 2) (idle two) = .next t) ∧ (∃ t, exec (.set 1 ⟨1, 2, 3⟩) (idle two) = .next t) ∧
    (∃ t, exec (.set (-1) ⟨1, 2, 3⟩) (idle two) = .next t) ∧ (∃ t, exec (.fill ⟨1, 2, 3⟩) (idle two) = .next t) ∧
    (∃ t, exec (.get 1) (idle two) = .next t) ∧ (∃ t, exec .scale (idle two) = .next t) ∧
    (∃ t, exec (.transmit [1, 2]) (idle two) = .next t) ∧ (∃ t, exec .render (latched two 0) = .next t) ∧
    (∃ t, exec (.delay 0) (idle two) = .next t) ∧ ∃ t, exec .rainbow (idle two) = .next t :=
  ⟨next_exists (by decide +kernel), next_exists (by decide +kernel), next_exists (by decide +kernel),
    next_exists (by decide +kernel), next_exists (by decide +kernel), next_exists (by decide +kernel),
    next_exists (by decide +kernel), next_exists (by decide +kernel), next_exists (by decide +kernel), ⟨_, rfl⟩⟩

theorem witness_TraceOnlyGrows : Move.reset ∉ [Move.rx 0x0A, .seq, .tx] ∧
    ∃ t, runMoves [.rx 0x0A, .seq, .tx] (playing two [.render]) = .next t :=
  ⟨by decide, next_exists (by decide +kernel)⟩

theorem witness_ResetMeetsTheInvariant : defaultConfig.valid = true ∧ twoFixed.valid = true := by decide +kernel

/-- The invariant does not look at the moves still to come. -/
theorem witness_EveryStepKeepsTheInvariant :
    ∃ s t : State, Inv s ∧ s.tx.state = .shift ∧ step s = .next t := by
  refine ⟨{ shifting one [0x00FF00] with agenda := [.tick one.t0h] }, _, ?_, rfl, rfl⟩
  have h := frame_start_inv
  exact ⟨h.cfg, h.memory, ⟨h.seq.pc, h.seq.prog, h.seq.finished, h.seq.hold, h.seq.cmd, h.seq.pending, h.seq.parsed⟩,
    ⟨h.rx.buf, h.rx.ovf⟩, ⟨h.tx.frame, h.tx.pix, h.tx.bit, h.tx.line, h.tx.phaseTime, h.tx.lowTime⟩, h.now, h.frames⟩

theorem witness_EveryStepIsDefined : Inv (shifting one [0x00FF00]) := frame_start_inv

/-- A running program of two SETs and a RENDER meets the invariant. -/
theorem playing_inv : Inv (playing two [.set 0 ⟨1, 2, 3⟩, .set 5 ⟨1, 2, 3⟩, .render]) where
  cfg := by decide +kernel
  memory := by decide +kernel
  seq :=
    { pc := by decide +kernel, prog := by decide +kernel, finished := by decide +kernel, hold := trivial, cmd := trivial,
      pending := by decide +kernel, parsed := by decide +kernel }
  rx := { buf := by decide +kernel, ovf := by decide +kernel }
  tx :=
    { frame := by decide +kernel, pix := by decide +kernel, bit := by decide +kernel, line := by decide +kernel,
      phaseTime := by decide +kernel, lowTime := by decide +kernel }
  now := by decide +kernel
  frames := by simp [playing, at_, State.load, State.resetWith]

/-- A byte completes a late line while the program runs. -/
theorem witness_ProgramRunsUninterrupted :
    Inv (playing two [.set 0 ⟨1, 2, 3⟩, .set 5 ⟨1, 2, 3⟩, .render]) ∧ Move.reset ∉ [Move.seq, .rx 0x0A, .seq, .seq] ∧
    Within [.seq, .rx 0x0A, .seq, .seq] (playing two [.set 0 ⟨1, 2, 3⟩, .set 5 ⟨1, 2, 3⟩, .render]) ∧
    ∃ t, runMoves [.seq, .rx 0x0A, .seq, .seq] (playing two [.set 0 ⟨1, 2, 3⟩, .set 5 ⟨1, 2, 3⟩, .render]) = .next t ∧
      t.seq.pc = 3 :=
  ⟨playing_inv, by decide, ⟨rfl, _, rfl, rfl, _, rfl, rfl, _, rfl, rfl, _, rfl, by exact rfl⟩, _, rfl, by exact rfl⟩

/-- TX in `LATCH` meets the invariant. -/
theorem latched_inv : Inv (latched one 0) where
  cfg := by decide +kernel
  memory := by decide +kernel
  seq :=
    { pc := by decide +kernel, prog := by decide +kernel, finished := by decide +kernel, hold := trivial, cmd := trivial,
      pending := by decide +kernel, parsed := by decide +kernel }
  rx := { buf := by decide +kernel, ovf := by decide +kernel }
  tx :=
    { frame := by decide +kernel, pix := by decide +kernel, bit := by decide +kernel, line := by decide +kernel,
      phaseTime := by decide +kernel, lowTime := by decide +kernel }
  now := by decide +kernel
  frames := by simp [latched, idle, at_, State.resetWith]

/-- A run: the latch gap passes, TX ends it, and then time passes second by second. -/
def gapMoves : Nat → Move
  | 0 => .tick 1
  | 1 => .tx
  | _ + 2 => .tick 1

/-- The states of that run. -/
def gapRun : Nat → State
  | 0 => latched one 0
  | 1 => (latched one 0).elapse 1
  | k + 2 => { ((latched one 0).elapse 1).endLatch with now := 1 + k }

theorem gapRun_fair : FairRun gapMoves gapRun where
  run := by
    intro k
    refine ⟨gapRun k, rfl, ?_⟩
    match k with
    | 0 => exact next_of (by decide +kernel)
    | 1 => exact next_of (by decide +kernel)
    | k + 2 =>
      show passTime 1 (gapRun (k + 2)) = .next (gapRun (k + 3))
      simp [passTime, gapRun, State.elapse, State.endLatch, latched, add_assoc]
  seq := fun k => ⟨k, le_refl k, .inr (by
    match k with
    | 0 => decide +kernel
    | 1 => decide +kernel
    | k + 2 => rfl)⟩
  tx := fun k => ⟨k + 2, by omega, .inr rfl⟩
  time := fun T => by
    obtain ⟨k, hk⟩ := exists_nat_ge T
    exact ⟨k + 2, by show T ≤ 1 + (k : Rat); linarith⟩

theorem witness_QuiescenceCanBeReached :
    (Inv (gapRun 0) ∧ ¬ Quiescent (gapRun 0) ∧ FairRun gapMoves gapRun ∧ (∀ k b, gapMoves k ≠ .rx b) ∧
      ∀ k, gapMoves k ≠ .reset) ∧
    Inv (shifting one [0x00FF00]) ∧ ¬ Quiescent (shifting one [0x00FF00]) := by
  refine ⟨⟨latched_inv, by simp [Quiescent, gapRun, latched], gapRun_fair, ?_, ?_⟩, frame_start_inv,
    by simp [Quiescent, shifting, State.handOver]⟩
  · intro k b; match k with
    | 0 => simp [gapMoves]
    | 1 => simp [gapMoves]
    | k + 2 => simp [gapMoves]
  · intro k; match k with
    | 0 => simp [gapMoves]
    | 1 => simp [gapMoves]
    | k + 2 => simp [gapMoves]

/-- R40: SEQ is not able to step in `AWAIT` or while TX is busy under its hold, and is again when TX is idle. -/
theorem test_seqEnabled : (idle two).seqEnabled = false ∧ ((playing two [.render]).holdFor .txBusy).seqEnabled = true ∧
    ((latched two 0).seqEnabled || ({ (playing two [.render]).holdFor .txBusy with
      tx := (latched two 0).tx } : State).seqEnabled) = false ∧ (latched two 0).txEnabled = false ∧
    (latched two two.tLatch).txEnabled = true := by decide +kernel

theorem witness_EveryInputHasAnObservation : tc.valid = true := by decide +kernel

end Sys2Proof.Tests
end

section
/-! PROOFS for spec/00_scope.md (R13, R17, R20, R21): validity in the terms of R8 to R15, the frame SCALE returns, the
mirrored chases, and what any interleaving of moves does while a program runs. -/

namespace Sys2Proof

/-- R343: a boot pattern is legal when the colour index it reads, if it reads one, is in [0, 9]. -/
theorem Pattern.wf_iff (p : Pattern) : p.wf = true ↔ ∀ k, p.colour? = some k → k ≤ 9 := by
  cases p <;> simp [Pattern.wf, Pattern.colour?]

/-- The instruction with the position it SETs mirrored (R21). -/
def Instr.mirrored (cfg : Config) : Instr → Instr
  | .set p px => .set (cfg.mirror p) px
  | i => i

/-- R217: a step of CHASE_B is the step of CHASE_A with every position mirrored. -/
theorem Config.chaseBStep_eq (cfg : Config) (px : Pixel) (i : Nat) :
    cfg.chaseBStep px i = (cfg.chaseAStep px i).map (Instr.mirrored cfg) := by
  have left : (cfg.n : Int) - cfg.b + i = cfg.mirror (cfg.b - 1 - i) := by rw [Config.mirror]; ring
  have right : (cfg.n : Int) - 1 - cfg.b - i = cfg.mirror (cfg.b + i) := by rw [Config.mirror]; ring
  have clear : cfg.clearOps.map (Instr.mirrored cfg) = cfg.clearOps := by
    cases h : cfg.clearRender <;> simp [Config.clearOps, h, Instr.mirrored]
  simp [Config.chaseBStep, Config.chaseAStep, left, right, clear, Instr.mirrored]

theorem Config.chaseBOps_eq (cfg : Config) (px : Pixel) :
    cfg.chaseBOps px = (cfg.chaseAOps px).map (Instr.mirrored cfg) := by
  have steps : cfg.chaseBStep px = fun i => (cfg.chaseAStep px i).map (Instr.mirrored cfg) :=
    funext (cfg.chaseBStep_eq px)
  rw [Config.chaseBOps, Config.chaseAOps, List.map_flatMap, steps]

/-- Every instruction of CHASE_A is one that pattern programs contain, where its delay is no negative time. -/
theorem Config.chaseAOps_inProgram (cfg : Config) (px : Pixel) (ht : 0 ≤ cfg.tChase) :
    ∀ i ∈ cfg.chaseAOps px, i.inProgram = true := by
  have step (k : Nat) : ∀ i ∈ cfg.chaseAStep px k, i.inProgram = true := by
    cases h : cfg.clearRender <;> simp [Config.chaseAStep, Config.clearOps, h, Instr.inProgram, ht]
  intro i hi
  obtain ⟨k, -, hk⟩ := List.mem_flatMap.1 hi
  exact step k i hk

theorem Instr.isMicro_of_inProgram {i : Instr} (h : i.inProgram = true) : i.isMicro = true := by
  cases i with
  | set p px => rfl
  | render => rfl
  | delay t => rfl
  | _ => cases h

end Sys2Proof

namespace Sys2Proof.Machine

/-! ## Playing a program -/

@[simp] theorem play_nil (cfg : Config) (v : Played) : play cfg [] v = v := rfl

@[simp] theorem play_cons (cfg : Config) (i : Instr) (ops : List Instr) (v : Played) :
    play cfg (i :: ops) v = play cfg ops (playOp cfg v i) := rfl

theorem play_append (cfg : Config) (ops ops' : List Instr) (v : Played) :
    play cfg (ops ++ ops') v = play cfg ops' (play cfg ops v) := List.foldl_append

@[simp] theorem seqEvents_append (es es' : List Event) : seqEvents (es ++ es') = seqEvents es ++ seqEvents es' :=
  List.filter_append ..

@[simp] theorem seqEvents_frame (ws : List WireWord) : seqEvents [.frame ws] = [.frame ws] := rfl
@[simp] theorem seqEvents_err (k : Nat) (info : ErrInfo) : seqEvents [.err k info] = [.err k info] := rfl
@[simp] theorem seqEvents_dropped (u : CmdUnit) : seqEvents [.dropped u] = [] := rfl

@[simp] theorem framesIn_append (es es' : List Event) : framesIn (es ++ es') = framesIn es ++ framesIn es' :=
  List.filterMap_append ..

@[simp] theorem framesIn_frame (ws : List WireWord) : framesIn [.frame ws] = [ws] := rfl
@[simp] theorem framesIn_err (k : Nat) (info : ErrInfo) : framesIn [.err k info] = [] := rfl
@[simp] theorem framesIn_dropped (u : CmdUnit) : framesIn [.dropped u] = [] := rfl

/-- Word `k` of the frame is the packed pixel `k`, for a framebuffer of `N` pixels (R162). -/
theorem frameOf_eq_map (cfg : Config) (fb : Memory) (h : fb.length = cfg.n) :
    frameOf cfg fb = fb.map fun px => pack px (factor cfg) := by
  refine List.ext_getElem (by simp [frameOf, h]) fun k hk hk' => ?_
  have : k < fb.length := by simpa using hk'
  simp [frameOf, this]

/-- What a state shows of the program it plays: the framebuffer and the events SEQ caused (R79). -/
def State.played (s : State) : Played := ⟨s.fb, seqEvents s.trace⟩

/-! ## What each move leaves as it was -/

/-- TX's step writes TX and the wire record only. -/
theorem txStep_frame {s t : State} (h : txStep s = .next t) :
    t.cfg = s.cfg ∧ t.fb = s.fb ∧ t.seq = s.seq ∧ t.rx = s.rx ∧ t.trace = s.trace := by
  rcases txStep_cases s with ⟨-, e⟩ | ⟨-, -, e⟩ | ⟨-, -, e⟩ | ⟨-, -, e⟩ | ⟨_, -, -, -, e⟩ | ⟨_, -, -, -, e⟩ <;>
    rw [e] at h <;> cases h <;> simp

/-- The passing of time writes TX and real time only. -/
theorem passTime_frame {dt : Rat} {s t : State} (h : passTime dt s = .next t) :
    t.cfg = s.cfg ∧ t.fb = s.fb ∧ t.seq = s.seq ∧ t.rx = s.rx ∧ t.trace = s.trace ∧ t.wire = s.wire := by
  rcases passTime_cases dt s with e | ⟨-, -, e⟩ | ⟨_, -, -, -, -, e⟩ | ⟨-, -, e⟩ <;>
    rw [e] at h <;> cases h <;> simp

/-- RX's byte step is a change of RX, after the delivery of a unit or without one (R260, R262). -/
theorem rxByte_cases (b : Byte) (s : State) :
    (∃ u rx', rxByte b s = { s.deliver u with rx := rx' }) ∨ ∃ rx', rxByte b s = { s with rx := rx' } := by
  cases hm : s.cfg.unitMode with
  | line =>
    rw [rxByte_line b s hm]
    rcases rxLine_cases b s with ⟨-, e⟩ | ⟨-, -, e⟩ | ⟨-, -, e⟩
    · exact .inl ⟨_, _, e⟩
    · exact .inr ⟨_, e⟩
    · exact .inr ⟨_, e⟩
  | fixed2 =>
    rw [rxByte_fixed2 b s hm]
    rcases rxFixed2_cases b s with ⟨-, e⟩ | ⟨-, e⟩
    · exact .inl ⟨_, _, e⟩
    · exact .inr ⟨_, e⟩

/-- A byte that comes outside `AWAIT` leaves SEQ and what SEQ caused as they were: a unit it completes is dropped
(R213, R263). -/
theorem rxByte_busy (b : Byte) {s : State} (h : s.seq.state ≠ .await) :
    (rxByte b s).cfg = s.cfg ∧ (rxByte b s).seq = s.seq ∧ (rxByte b s).played = s.played := by
  rcases rxByte_cases b s with ⟨u, rx', e⟩ | ⟨rx', e⟩
  · rw [e, State.deliver_busy s u h]
    simp [State.played]
  · rw [e]
    exact ⟨rfl, rfl, rfl⟩

/-- The micro-operation `i` took SEQ from `s` to `t`: either it holds, with nothing played, or it has completed, and then it
did to the framebuffer and SEQ's events what `playOp` says (R212). `prog` stays either way. -/
def HoldsOrCompletes (i : Instr) (s t : State) : Prop :=
  t.cfg = s.cfg ∧ t.seq.prog = s.seq.prog ∧
    ((t.seq.pc = s.seq.pc ∧ t.played = s.played) ∨
      (t.seq.pc = s.seq.pc + 1 ∧ t.played = playOp s.cfg s.played i))

theorem execTransmit_holdsOrCompletes {fr : List WireWord} {s t : State} (h : execTransmit fr s = .next t) :
    HoldsOrCompletes (.transmit fr) s t := by
  rcases execTransmit_cases fr s with ⟨-, e⟩ | ⟨-, e⟩ <;> rw [e] at h <;> cases h
  · exact ⟨rfl, rfl, .inr ⟨rfl, by simp [State.played, playOp]⟩⟩
  · exact ⟨rfl, rfl, .inl ⟨rfl, rfl⟩⟩

theorem exec_holdsOrCompletes {i : Instr} {s t : State} (hi : i.isMicro = true) (h : exec i s = .next t) :
    HoldsOrCompletes i s t := by
  cases i with
  | set p px =>
    change execSet p px s = _ at h
    rcases execSet_cases p px s with ⟨hp, e⟩ | ⟨hp, e⟩ <;> rw [e] at h <;> cases h
    · exact ⟨rfl, rfl, .inr ⟨rfl, by simp [State.played, playOp, hp]⟩⟩
    · exact ⟨rfl, rfl, .inr ⟨rfl, by simp [State.played, playOp, hp, Err.code, Err.info]⟩⟩
  | fill px => cases h; exact ⟨rfl, rfl, .inr ⟨rfl, rfl⟩⟩
  | get k =>
    change execGet k s = _ at h
    rcases execGet_cases k s with ⟨px, -, -, e⟩ | ⟨-, e⟩ <;> rw [e] at h <;> cases h
    exact ⟨rfl, rfl, .inr ⟨rfl, rfl⟩⟩
  | scale => cases h; exact ⟨rfl, rfl, .inr ⟨rfl, rfl⟩⟩
  | transmit fr => exact execTransmit_holdsOrCompletes h
  | render => exact execTransmit_holdsOrCompletes (fr := frameOf s.cfg s.fb) h
  | delay d =>
    change execDelay d s = _ at h
    rcases execDelay_cases d s with ⟨-, e⟩ | ⟨-, e⟩ <;> rw [e] at h <;> cases h
    · exact ⟨rfl, rfl, .inr ⟨rfl, rfl⟩⟩
    · exact ⟨rfl, rfl, .inl ⟨rfl, rfl⟩⟩
  | _ => cases hi

/-! ## A running program acts in program order -/

/-- The micro-operations of `prog` from `pc` to before `k`. -/
def State.opsTo (s : State) (k : Nat) : List Instr := (s.seq.prog.drop s.seq.pc).take (k - s.seq.pc)

/-- From `s` to `t` the program acted in program order: `prog` stays, `pc` does not fall, and the micro-operations between
the two `pc` are what was played. -/
structure ActsInOrder (s t : State) : Prop where
  cfg : t.cfg = s.cfg
  prog : t.seq.prog = s.seq.prog
  pc : s.seq.pc ≤ t.seq.pc
  played : t.played = play s.cfg (s.opsTo t.seq.pc) s.played

/-- Nothing is played where SEQ does not move. -/
theorem ActsInOrder.of_seq_eq {s t : State} (hcfg : t.cfg = s.cfg) (hseq : t.seq = s.seq)
    (hplayed : t.played = s.played) : ActsInOrder s t :=
  ⟨hcfg, by rw [hseq], by rw [hseq], by simp [hplayed, hseq, State.opsTo]⟩

/-- The micro-operation at `pc` is played exactly when `pc` moves on by one. -/
theorem HoldsOrCompletes.actsInOrder {s t : State} {i : Instr} (hi : s.seq.prog[s.seq.pc]? = some i)
    (h : HoldsOrCompletes i s t) : ActsInOrder s t := by
  obtain ⟨hcfg, hprog, ⟨hpc, hplayed⟩ | ⟨hpc, hplayed⟩⟩ := h
  · exact ⟨hcfg, hprog, hpc.ge, by simp [hplayed, hpc, State.opsTo]⟩
  · have ops : s.opsTo t.seq.pc = [i] := by
      obtain ⟨hlt, rfl⟩ := List.getElem?_eq_some_iff.1 hi
      simp [State.opsTo, hpc, List.take_one_drop_eq_of_lt_length hlt]
    exact ⟨hcfg, hprog, by omega, by simp [ops, hplayed]⟩

theorem ActsInOrder.trans {s t u : State} (h : ActsInOrder s t) (h' : ActsInOrder t u) : ActsInOrder s u := by
  have ops : s.opsTo u.seq.pc = s.opsTo t.seq.pc ++ t.opsTo u.seq.pc := by
    have hle := h.pc
    have hle' := h'.pc
    have split : u.seq.pc - s.seq.pc = (t.seq.pc - s.seq.pc) + (u.seq.pc - t.seq.pc) := by omega
    have drop : s.seq.pc + (t.seq.pc - s.seq.pc) = t.seq.pc := by omega
    simp [State.opsTo, h.prog, split, List.take_add, List.drop_drop, drop]
  exact ⟨h'.cfg.trans h.cfg, h'.prog.trans h.prog, h.pc.trans h'.pc, by
    rw [h'.played, h.cfg, h.played, ops, play_append]⟩

/-- A running program stands outside `AWAIT`. -/
theorem not_await_of_running {s : State} (h : s.running = true) : s.seq.state ≠ .await := by
  rcases (running_iff s).1 h with hb | ⟨hd, -⟩
  · simp [hb]
  · simp [hd]

/-- SEQ's move from one running state to another executes the micro-operation at `pc`. -/
theorem seqStep_actsInOrder {s t : State} (hprog : ∀ i ∈ s.seq.prog, i.inProgram = true) (hs : s.running = true)
    (ht : t.running = true) (h : seqStep s = .next t) : ActsInOrder s t := by
  rw [seqStep_running s hs] at h
  cases hi : s.seq.prog[s.seq.pc]? with
  | none =>
    rw [runStep_none s hi] at h
    cases h
    exact absurd rfl (not_await_of_running ht)
  | some i =>
    rw [runStep_some s i hi] at h
    have micro : i.isMicro = true := Instr.isMicro_of_inProgram (hprog i (List.mem_of_getElem? hi))
    exact (exec_holdsOrCompletes micro h).actsInOrder hi

/-- Whichever agent moves, a running program acts in program order (R213, R305). -/
theorem act_actsInOrder {m : Move} {s t : State} (hprog : ∀ i ∈ s.seq.prog, i.inProgram = true) (hm : m ≠ .reset)
    (hs : s.running = true) (ht : t.running = true) (h : act m s = .next t) : ActsInOrder s t := by
  cases m with
  | tick dt =>
    obtain ⟨hcfg, hfb, hseq, -, htr, -⟩ := passTime_frame h
    exact .of_seq_eq hcfg hseq (by rw [State.played, hfb, htr, State.played])
  | rx b =>
    cases h
    obtain ⟨hcfg, hseq, hplayed⟩ := rxByte_busy b (not_await_of_running hs)
    exact .of_seq_eq hcfg hseq hplayed
  | seq => exact seqStep_actsInOrder hprog hs ht h
  | tx =>
    obtain ⟨hcfg, hfb, hseq, -, htr⟩ := txStep_frame h
    exact .of_seq_eq hcfg hseq (by rw [State.played, hfb, htr, State.played])
  | reset => exact absurd rfl hm

theorem Within.running {ms : List Move} {s : State} (h : Within ms s) : s.running = true := by
  cases ms with
  | nil => exact h
  | cons m ms => exact h.1

theorem runMoves_actsInOrder {ms : List Move} {s t : State} (hprog : ∀ i ∈ s.seq.prog, i.inProgram = true)
    (hr : Move.reset ∉ ms) (hw : Within ms s) (h : runMoves ms s = .next t) : ActsInOrder s t := by
  induction ms generalizing s with
  | nil => cases h; exact .of_seq_eq rfl rfl rfl
  | cons m ms ih =>
    obtain ⟨hm, hms⟩ := List.ne_and_not_mem_of_not_mem_cons hr
    obtain ⟨hs, u, hu, hwu⟩ := hw
    have first : ActsInOrder s u := act_actsInOrder hprog (Ne.symm hm) hs hwu.running hu
    rw [runMoves_cons, hu, andThen_next] at h
    exact first.trans (ih (first.prog ▸ hprog) hms hwu h)

/-- Settles O58: every move keeps program order, and an induction over the moves composes them. -/
theorem programRunsUninterrupted : Obligations.ProgramRunsUninterrupted := by
  intro ms s t hinv hr hw h
  obtain ⟨-, hprog, hpc, hplayed⟩ := runMoves_actsInOrder hinv.seq.prog hr hw h
  exact ⟨hprog, hpc, hplayed⟩

/-! ## The mirrored chases -/

/-- `w` is `v` in the mirror: the framebuffer of `N` pixels and every frame read in reverse index order. -/
structure Mirrors (cfg : Config) (v w : Played) : Prop where
  length : v.fb.length = cfg.n
  fb : w.fb = v.fb.reverse
  frames : framesIn w.events = (framesIn v.events).map List.reverse

/-- The write at index `k`, read in reverse order, is the write at the mirrored index. -/
theorem reverse_set {α : Type} (l : List α) (k : Nat) (a : α) (h : k < l.length) :
    (l.set k a).reverse = l.reverse.set (l.length - 1 - k) a := by
  refine List.ext_getElem (by simp) fun q hq _ => ?_
  have hql : q < l.length := by simpa using hq
  have index : k = l.length - 1 - q ↔ l.length - 1 - k = q := by omega
  simp [List.getElem_set, index]

theorem frameOf_reverse (cfg : Config) (fb : Memory) (h : fb.length = cfg.n) :
    frameOf cfg fb.reverse = (frameOf cfg fb).reverse := by
  rw [frameOf_eq_map cfg fb h, frameOf_eq_map cfg fb.reverse (by simpa using h), List.map_reverse]

/-- A program's micro-operation and its mirror image keep two plays each other's mirror image. -/
theorem Mirrors.after_op {cfg : Config} {v w : Played} {i : Instr} (hi : i.inProgram = true) (h : Mirrors cfg v w) :
    Mirrors cfg (playOp cfg v i) (playOp cfg w (i.mirrored cfg)) := by
  obtain ⟨hlen, hfb, hfr⟩ := h
  cases i with
  | set p px =>
    cases hp : cfg.inRange p with
    | true =>
      obtain ⟨hp0, hpn⟩ := (cfg.inRange_iff p).1 hp
      have index : (cfg.mirror p).toNat = v.fb.length - 1 - p.toNat := by rw [Config.mirror]; omega
      have swap := reverse_set v.fb p.toNat px (by omega)
      refine ⟨?_, ?_, ?_⟩ <;>
        simp [playOp, Instr.mirrored, Config.inRange_mirror, hp, hlen, hfb, hfr, swap, index]
    | false =>
      refine ⟨?_, ?_, ?_⟩ <;>
        simp [playOp, Instr.mirrored, Config.inRange_mirror, hp, hlen, hfb, hfr]
  | render =>
    refine ⟨hlen, hfb, ?_⟩
    simp [playOp, Instr.mirrored, hfb, hfr, frameOf_reverse cfg v.fb hlen]
  | delay t => exact ⟨hlen, hfb, hfr⟩
  | _ => cases hi

theorem Mirrors.after_ops {cfg : Config} {ops : List Instr} {v w : Played} (hops : ∀ i ∈ ops, i.inProgram = true)
    (h : Mirrors cfg v w) : Mirrors cfg (play cfg ops v) (play cfg (ops.map (Instr.mirrored cfg)) w) := by
  induction ops generalizing v w with
  | nil => exact h
  | cons i ops ih =>
    obtain ⟨hi, hops⟩ := List.forall_mem_cons.1 hops
    exact ih hops (h.after_op hi)

theorem mirrors_black (cfg : Config) :
    Mirrors cfg ⟨List.replicate cfg.n Pixel.black, []⟩ ⟨List.replicate cfg.n Pixel.black, []⟩ :=
  ⟨by simp, by simp, rfl⟩

/-- Settles O50: CHASE_B is CHASE_A with its positions mirrored, and an all-Black framebuffer is its own mirror image. -/
theorem chasesMirrorEachOther : Obligations.ChasesMirrorEachOther := by
  intro cfg c hv _
  obtain ⟨-, -, hd⟩ := cfg.valid_iff.1 hv
  obtain ⟨hchase, -⟩ := cfg.delayValid_iff.1 hd
  have ht : 0 ≤ cfg.tChase := le_trans (by norm_num) hchase
  rw [Config.expand, Config.expand, Config.chaseBOps_eq]
  exact ((mirrors_black cfg).after_ops (cfg.chaseAOps_inProgram _ ht)).frames

/-! ## Validity and SCALE -/

/-- Settles O2: the bounds are those of Laws/Config.lean, the boot sequence's by `Pattern.wf_iff`. -/
theorem invalidConfigurationIsRefused : Obligations.InvalidConfigurationIsRefused := by
  refine ⟨fun c => ?_, step_of_invalid⟩
  rw [c.valid_iff, c.shapeValid_iff, c.wireValid_iff, c.delayValid_iff]
  simp only [Pattern.wf_iff]

/-- Settles O29: the words are those of `frameOf`. -/
theorem scaleReturnsTheFrame : Obligations.ScaleReturnsTheFrame := by
  intro s hwf
  refine ⟨frameOf s.cfg s.fb, rfl, frameOf_length s.cfg s.fb, fun k px hk => ?_⟩
  rw [State.readFB] at hk
  rw [frameOf_eq_map s.cfg s.fb ((Memory.wf_iff _ _).1 hwf), List.getElem?_map, hk]
  rfl

end Sys2Proof.Machine
end

section
/-! PROOFS for spec/10_state.md (R32 to R53): what each instruction, each agent's step and each move can do and leaves as it
was, the invariant and its preservation, and that no step from it stops. -/

namespace Sys2Proof

/-! ## The programs patterns expand to hold admitted micro-operations (R38, R113) -/

@[simp] theorem Instr.inProgram_mirrored (cfg : Config) (i : Instr) : (i.mirrored cfg).inProgram = i.inProgram := by
  cases i <;> rfl

theorem Config.clearOps_inProgram (cfg : Config) : ∀ i ∈ cfg.clearOps, i.inProgram = true := by
  cases h : cfg.clearRender <;> simp [Config.clearOps, h, Instr.inProgram]

theorem Config.fillBounceOps_inProgram (cfg : Config) (px : Pixel) : ∀ i ∈ cfg.fillBounceOps px, i.inProgram = true := by
  intro i hi
  obtain ⟨k, -, hk⟩ := List.mem_flatMap.1 hi
  have step : ∀ j ∈ cfg.bounceStep px k, j.inProgram = true := by simp [Config.bounceStep, Instr.inProgram]
  exact step i hk

theorem Config.chaseBOps_inProgram (cfg : Config) (px : Pixel) (ht : 0 ≤ cfg.tChase) :
    ∀ i ∈ cfg.chaseBOps px, i.inProgram = true := by
  rw [Config.chaseBOps_eq]
  simpa using cfg.chaseAOps_inProgram px ht

theorem Config.sectionStep_inProgram (cfg : Config) (px : Pixel) (k : Nat) (ht : 0 ≤ cfg.tSection) :
    ∀ i ∈ cfg.sectionStep px k, i.inProgram = true := by
  have sets (px : Pixel) : ∀ i ∈ cfg.sectionSets px k, i.inProgram = true := by
    simp [Config.sectionSets, Instr.inProgram]
  have pause : ∀ i ∈ [Instr.render, .delay cfg.tSection], i.inProgram = true := by simp [Instr.inProgram, ht]
  rw [Config.sectionStep]
  exact List.forall_mem_append.2 ⟨List.forall_mem_append.2
    ⟨List.forall_mem_append.2 ⟨sets px, pause⟩, sets Pixel.black⟩, cfg.clearOps_inProgram⟩

theorem Config.rainbowOps_inProgram (cfg : Config) (ht : 0 ≤ cfg.tRainbow) :
    ∀ i ∈ cfg.rainbowOps, i.inProgram = true := by
  intro i hi
  obtain ⟨j, -, hj⟩ := List.mem_flatMap.1 hi
  have step : ∀ k ∈ cfg.rainbowStep j, k.inProgram = true := by
    rw [Config.rainbowStep]
    exact List.forall_mem_append.2 ⟨by simp [Instr.inProgram], by simp [Instr.inProgram, ht]⟩
  exact step i hj

theorem Config.expand_inProgram {cfg : Config} (hv : cfg.valid = true) (p : Pattern) :
    ∀ i ∈ cfg.expand p, i.inProgram = true := by
  obtain ⟨-, -, hd⟩ := cfg.valid_iff.1 hv
  obtain ⟨hchase, -, hsection, hrainbow⟩ := cfg.delayValid_iff.1 hd
  have hchase : 0 ≤ cfg.tChase := le_trans (by norm_num) hchase
  have sections (px : Pixel) (k : Nat) := cfg.sectionStep_inProgram px k hsection.le
  cases p with
  | fillBounce c => exact cfg.fillBounceOps_inProgram _
  | chaseA c => exact cfg.chaseAOps_inProgram _ hchase
  | chaseB c => exact cfg.chaseBOps_inProgram _ hchase
  | sectionFwd c =>
    intro i hi
    obtain ⟨k, -, hk⟩ := List.mem_flatMap.1 hi
    exact sections _ k i hk
  | sectionRev c =>
    intro i hi
    obtain ⟨k, -, hk⟩ := List.mem_flatMap.1 hi
    exact sections _ k i hk
  | rainbow => exact cfg.rainbowOps_inProgram hrainbow

theorem Config.bootProgram_inProgram {cfg : Config} (hv : cfg.valid = true) :
    ∀ i ∈ cfg.bootProgram, i.inProgram = true := by
  intro i hi
  obtain ⟨p, -, hp⟩ := List.mem_flatMap.1 hi
  exact cfg.expand_inProgram hv p i hp

/-! ## What ParseLine and Validate answer (R39, R105, R265 to R269) -/

theorem digit_le_nine {b : Byte} (h : isDigit b = true) : digit b ≤ 9 := by
  simp only [isDigit, Bool.and_eq_true, decide_eq_true_eq] at h
  rw [digit]
  omega

theorem parsePair_inDigits (c0 c1 : Byte) : (parsePair c0 c1).inDigits := by
  unfold parsePair
  split
  · next h =>
    obtain ⟨h0, h1⟩ := Bool.and_eq_true_iff.1 h
    exact ⟨digit_le_nine h0, digit_le_nine h1⟩
  · exact trivial

theorem parseLine_inDigits (u : CmdUnit) : (parseLine u).inDigits := by
  unfold parseLine
  split
  · split
    · next h => exact digit_le_nine h
    · exact trivial
  · exact parsePair_inDigits _ _
  · exact trivial
  · exact trivial

theorem parseFixed2_inDigits (u : CmdUnit) : (parseFixed2 u).inDigits := by
  unfold parseFixed2
  split
  · exact parsePair_inDigits _ _
  · exact trivial
  · exact trivial

theorem parse_inDigits (mode : UnitMode) (u : CmdUnit) : (parse mode u).inDigits := by
  cases mode with
  | line => exact parseLine_inDigits u
  | fixed2 => exact parseFixed2_inDigits u

theorem ne_invalid_of_validate {u : CmdUnit} {c : Cmd} (h : validate u c = none) : c ≠ .invalid := by
  rintro rfl
  cases h

theorem Cmd.instr?_not_isMicro {c : Cmd} {i : Instr} (h : c.instr? = some i) : i.isMicro = false := by
  cases c with
  | fill c => cases h; rfl
  | directional d c => cases h; split <;> rfl
  | invalid => cases h

end Sys2Proof

namespace Sys2Proof.Machine

/-! ## What an instruction can do -/

/-- Instruction `i`, executed in `s`, leaves the given state: everything `exec` can answer. -/
inductive Executes (s : State) : Instr → State → Prop
  | setInRange (p : Int) (px : Pixel) (hp : s.cfg.inRange p = true) :
    Executes s (.set p px) (s.writeFB p.toNat px).advance
  | setOutOfRange (p : Int) (px : Pixel) (hp : s.cfg.inRange p = false) :
    Executes s (.set p px) (s.raise (.boundaryOverrun p)).advance
  | fill (px : Pixel) : Executes s (.fill px) (s.fillFB px).advance
  | get (k : Int) (px : Pixel) (hp : s.cfg.inRange k = true) (hpx : s.readFB k.toNat = some px) :
    Executes s (.get k) (s.returns (.pixel px)).advance
  | scale : Executes s .scale (s.returns (.frame (frameOf s.cfg s.fb))).advance
  | transmit (fr : List WireWord) (idle : s.tx.state = .idle) :
    Executes s (.transmit fr) ((s.holdFor .none).handOver fr).advance
  | transmitHeld (fr : List WireWord) (busy : s.tx.state ≠ .idle) : Executes s (.transmit fr) (s.holdFor .txBusy)
  | render (idle : s.tx.state = .idle) :
    Executes s .render ((s.holdFor .none).handOver (frameOf s.cfg s.fb)).advance
  | renderHeld (busy : s.tx.state ≠ .idle) : Executes s .render (s.holdFor .txBusy)
  | delay (d : Rat) (expired : (delayHold d s).1 + (delayHold d s).2 ≤ s.now) :
    Executes s (.delay d) (s.holdFor .none).advance
  | delayHeld (d : Rat) (waits : s.now < (delayHold d s).1 + (delayHold d s).2) :
    Executes s (.delay d) (s.holdFor (.delay (delayHold d s).1 (delayHold d s).2))
  | load (i : Instr) (p : Pattern) (hi : i.isMicro = false) (plays : exec i s = playPattern p s) :
    Executes s i (s.load (s.cfg.expand p))

/-- An instruction that is no micro-operation plays a pattern (R115, R270 to R273). -/
theorem exec_eq_playPattern {i : Instr} (hi : i.isMicro = false) (s : State) :
    ∃ p, exec i s = playPattern p s := by
  cases i with
  | cmdFill c => exact ⟨.fillBounce c, rfl⟩
  | cmdDirA c => exact ⟨_, execCmdDirA_eq c s⟩
  | cmdDirB d c => exact ⟨_, execCmdDirB_eq d c s⟩
  | fillBounce c => exact ⟨.fillBounce c, rfl⟩
  | chaseA c => exact ⟨.chaseA c, rfl⟩
  | chaseB c => exact ⟨.chaseB c, rfl⟩
  | sectionFwd c => exact ⟨.sectionFwd c, rfl⟩
  | sectionRev c => exact ⟨.sectionRev c, rfl⟩
  | rainbow => exact ⟨.rainbow, rfl⟩
  | _ => cases hi

theorem playPattern_next {p : Pattern} {s t : State} (h : playPattern p s = .next t) : t = s.load (s.cfg.expand p) := by
  rcases playPattern_cases p s with ⟨-, e⟩ | ⟨c, -, -, e⟩ <;> rw [e] at h <;> cases h
  rfl

theorem exec_executes {i : Instr} {s t : State} (h : exec i s = .next t) : Executes s i t := by
  cases hm : i.isMicro with
  | false =>
    obtain ⟨p, hp⟩ := exec_eq_playPattern hm s
    rw [playPattern_next (hp.symm.trans h)]
    exact .load i p hm hp
  | true =>
    cases i with
    | set p px =>
      change execSet p px s = _ at h
      rcases execSet_cases p px s with ⟨hp, e⟩ | ⟨hp, e⟩ <;> rw [e] at h <;> cases h
      · exact .setInRange p px hp
      · exact .setOutOfRange p px hp
    | fill px => cases h; exact .fill px
    | get k =>
      change execGet k s = _ at h
      rcases execGet_cases k s with ⟨px, hp, hpx, e⟩ | ⟨-, e⟩ <;> rw [e] at h <;> cases h
      exact .get k px hp hpx
    | scale => cases h; exact .scale
    | transmit fr =>
      change execTransmit fr s = _ at h
      rcases execTransmit_cases fr s with ⟨idle, e⟩ | ⟨busy, e⟩ <;> rw [e] at h <;> cases h
      · exact .transmit fr idle
      · exact .transmitHeld fr busy
    | render =>
      change execTransmit (frameOf s.cfg s.fb) s = _ at h
      rcases execTransmit_cases (frameOf s.cfg s.fb) s with ⟨idle, e⟩ | ⟨busy, e⟩ <;> rw [e] at h <;> cases h
      · exact .render idle
      · exact .renderHeld busy
    | delay d =>
      change execDelay d s = _ at h
      rcases execDelay_cases d s with ⟨expired, e⟩ | ⟨waits, e⟩ <;> rw [e] at h <;> cases h
      · exact .delay d expired
      · exact .delayHeld d waits
    | _ => cases hm

namespace Executes
variable {s t : State} {i : Instr}

theorem restSame (h : Executes s i t) : RestSame s t := by
  cases h <;> exact ⟨rfl, rfl, rfl, rfl, rfl, rfl⟩

theorem cfg_eq (h : Executes s i t) : t.cfg = s.cfg := h.restSame.1

theorem seq_kept (h : Executes s i t) :
    t.seq.state = s.seq.state ∧ t.seq.cmdUnit = s.seq.cmdUnit ∧ t.seq.cmd = s.seq.cmd := by
  cases h <;> exact ⟨rfl, rfl, rfl⟩

theorem fb_kept (h : Executes s i t) (hset : ∀ p px, i ≠ .set p px) (hfill : ∀ px, i ≠ .fill px) : t.fb = s.fb := by
  cases h with
  | setInRange p px => exact absurd rfl (hset p px)
  | setOutOfRange p px => exact absurd rfl (hset p px)
  | fill px => exact absurd rfl (hfill px)
  | _ => rfl

/-- A SET touches no entry but its own, one outside [0, N-1] none at all (R140). -/
theorem readFB_set_other {p : Int} {px : Pixel} (h : Executes s (.set p px) t) {q : Nat} (hq : (q : Int) ≠ p) :
    t.readFB q = s.readFB q := by
  cases h with
  | setInRange _ _ hp =>
    obtain ⟨hp0, -⟩ := (s.cfg.inRange_iff p).1 hp
    exact readFB_writeFB_other s p.toNat q px (by omega)
  | setOutOfRange => rfl
  | load _ _ hi _ => cases hi

theorem tx_kept (h : Executes s i t) (htransmit : ∀ fr, i ≠ .transmit fr) (hrender : i ≠ .render) : t.tx = s.tx := by
  cases h with
  | transmit fr => exact absurd rfl (htransmit fr)
  | render => exact absurd rfl hrender
  | _ => rfl

theorem trace_kept (h : Executes s i t) (hset : ∀ p px, i ≠ .set p px) (htransmit : ∀ fr, i ≠ .transmit fr)
    (hrender : i ≠ .render) : t.trace = s.trace := by
  cases h with
  | setOutOfRange p px => exact absurd rfl (hset p px)
  | transmit fr => exact absurd rfl (htransmit fr)
  | render => exact absurd rfl hrender
  | _ => rfl

theorem prog_kept (h : Executes s i t) (hi : i.isMicro = true) :
    t.seq.prog = s.seq.prog ∧ t.seq.loadPending = s.seq.loadPending := by
  cases h with
  | load _ _ hn _ => exact absurd hi (by simp [hn])
  | _ => exact ⟨rfl, rfl⟩

theorem result_kept (h : Executes s i t) (hget : ∀ k, i ≠ .get k) (hscale : i ≠ .scale) :
    t.seq.result = s.seq.result := by
  cases h with
  | get k => exact absurd rfl (hget k)
  | scale => exact absurd rfl hscale
  | _ => rfl

theorem hold_kept (h : Executes s i t) (htransmit : ∀ fr, i ≠ .transmit fr) (hrender : i ≠ .render)
    (hdelay : ∀ d, i ≠ .delay d) : t.seq.hold = s.seq.hold := by
  cases h with
  | transmit fr => exact absurd rfl (htransmit fr)
  | transmitHeld fr => exact absurd rfl (htransmit fr)
  | render => exact absurd rfl hrender
  | renderHeld => exact absurd rfl hrender
  | delay d => exact absurd rfl (hdelay d)
  | delayHeld d => exact absurd rfl (hdelay d)
  | _ => rfl

/-- TX changes only by the hand-over of a frame to an idle TX, which is recorded (R180, R181). -/
theorem tx_cases (h : Executes s i t) : t.tx = s.tx ∨
    (s.tx.state = .idle ∧ t.tx.state = .shift ∧ t.trace = s.trace ++ [.frame t.tx.frame]) := by
  cases h with
  | transmit fr idle => exact .inr ⟨idle, rfl, rfl⟩
  | render idle => exact .inr ⟨idle, rfl, rfl⟩
  | _ => exact .inl rfl

theorem trace_grows (h : Executes s i t) : s.trace <+: t.trace := by
  cases h with
  | setOutOfRange p px => exact ⟨_, rfl⟩
  | transmit fr => exact ⟨_, rfl⟩
  | render => exact ⟨_, rfl⟩
  | _ => exact ⟨[], List.append_nil _⟩

end Executes

/-- Settles O53: one frame lemma per element of the state, each over the cases of `Executes`. -/
theorem instructionFrames : Obligations.InstructionFrames := by
  intro i s t h
  have hx : Executes s i t := exec_executes h
  obtain ⟨hstate, hunit, hcmd⟩ := hx.seq_kept
  exact ⟨hx.restSame, hstate, hunit, hcmd, hx.fb_kept, fun p px hi q hq => (hi ▸ hx).readFB_set_other hq, hx.tx_kept,
    hx.trace_kept, hx.prog_kept, hx.result_kept, hx.hold_kept⟩

/-- Micro-operations that neither SET index `k` nor FILL leave entry `k` of the framebuffer. -/
theorem runOps_readFB_kept {k : Nat} {ops : List Instr} {s t : State} (hset : ∀ px, Instr.set k px ∉ ops)
    (hfill : ∀ px, Instr.fill px ∉ ops) (h : runOps ops s = .next t) : t.cfg = s.cfg ∧ t.readFB k = s.readFB k := by
  induction ops generalizing s with
  | nil => cases h; exact ⟨rfl, rfl⟩
  | cons i ops ih =>
    obtain ⟨u, hu, ht⟩ := (andThen_eq_next _ _ _).1 h
    have hx : Executes s i u := exec_executes hu
    obtain ⟨hcfg, hread⟩ := ih (fun px hm => hset px (List.mem_cons_of_mem _ hm))
      (fun px hm => hfill px (List.mem_cons_of_mem _ hm)) ht
    have first : u.readFB k = s.readFB k := by
      by_cases hi : ∃ p px, i = .set p px
      · obtain ⟨p, px, rfl⟩ := hi
        have hk : (k : Int) ≠ p := by
          rintro rfl
          exact hset px List.mem_cons_self
        exact hx.readFB_set_other hk
      · have other : u.fb = s.fb := hx.fb_kept (fun p px e => hi ⟨p, px, e⟩)
          (fun px e => hfill px (e ▸ List.mem_cons_self))
        rw [State.readFB, other, State.readFB]
    exact ⟨hcfg.trans hx.cfg_eq, hread.trans first⟩

/-- Settles O26: the SET writes entry `k`, what runs between leaves it, and the GET reads it. -/
theorem getAfterSetReturnsThePixel : Obligations.GetAfterSetReturnsThePixel := by
  intro k px ops s u hwf hk _ hset hfill h
  have inRange : s.cfg.inRange k = true := (s.cfg.inRange_iff k).2 ⟨by omega, by omega⟩
  have written : exec (.set k px) s = .next (s.writeFB k px).advance := by
    rcases execSet_cases k px s with ⟨-, e⟩ | ⟨hp, -⟩
    · exact e
    · simp [inRange] at hp
  rw [runOps_cons, written, andThen_next] at h
  obtain ⟨hcfg, hread⟩ := runOps_readFB_kept hset hfill h
  have stored : u.readFB k = some px :=
    hread.trans (readFB_writeFB_same s k px ((Memory.wf_iff _ _).1 hwf ▸ hk))
  refine ⟨(u.returns (.pixel px)).advance, ?_, rfl⟩
  have get : exec (.get k) u = .next (u.returns (.pixel px)).advance := by
    rcases execGet_cases k u with ⟨px', -, hpx', e⟩ | ⟨hn | hn, -⟩
    · cases hpx'.symm.trans stored
      exact e
    · simp [hcfg, inRange] at hn
    · cases hn.symm.trans stored
  rw [runOps_cons, get]
  rfl

/-! ## What SEQ's step can do -/

/-- SEQ's step takes `s` to the given state: everything `seqStep` can answer (R212, R264 to R274, R345). -/
inductive SeqSteps (s : State) : State → Prop
  | executes {t : State} (i : Instr) (running : s.running = true) (hi : s.seq.prog[s.seq.pc]? = some i)
    (hx : Executes s i t) : SeqSteps s t
  | completes (running : s.running = true) (hn : s.seq.prog[s.seq.pc]? = none) : SeqSteps s (s.goTo .await)
  | waits (hs : s.seq.state = .await) : SeqSteps s s
  | parses (hs : s.seq.state = .parse) : SeqSteps s (parseStep s)
  | rejects (r : Reject) (hs : s.seq.state = .validate) (hv : validate s.seq.cmdUnit s.seq.cmd = some r) :
    SeqSteps s ((s.raise (rejectErr r)).goTo .await)
  | accepts (hs : s.seq.state = .validate) (hv : validate s.seq.cmdUnit s.seq.cmd = none) :
    SeqSteps s { s with seq := { s.seq with state := .dispatch, loadPending := true } }
  | loads (i : Instr) (p : Pattern) (hs : s.seq.state = .dispatch) (hp : s.seq.loadPending = true)
    (hi : s.seq.cmd.instr? = some i) (plays : exec i s = playPattern p s) : SeqSteps s (s.load (s.cfg.expand p))

theorem loadStep_next {s t : State} (h : loadStep s = .next t) :
    ∃ i p, s.seq.cmd.instr? = some i ∧ exec i s = playPattern p s ∧ t = s.load (s.cfg.expand p) := by
  cases hi : s.seq.cmd.instr? with
  | none => simp [loadStep, hi] at h
  | some i =>
    obtain ⟨p, hp⟩ := exec_eq_playPattern (Cmd.instr?_not_isMicro hi) s
    rw [loadStep_some s i hi, hp] at h
    exact ⟨i, p, rfl, hp, playPattern_next h⟩

theorem runStep_seqSteps {s t : State} (running : s.running = true) (h : runStep s = .next t) : SeqSteps s t := by
  cases hi : s.seq.prog[s.seq.pc]? with
  | none =>
    rw [runStep_none s hi] at h
    cases h
    exact .completes running hi
  | some i =>
    rw [runStep_some s i hi] at h
    exact .executes i running hi (exec_executes h)

theorem seqStep_seqSteps {s t : State} (h : seqStep s = .next t) : SeqSteps s t := by
  by_cases running : s.running = true
  · exact runStep_seqSteps running (seqStep_running s running ▸ h)
  cases hs : s.seq.state with
  | boot => exact absurd ((running_iff s).2 (.inl hs)) running
  | await => rw [seqStep_await s hs] at h; cases h; exact .waits hs
  | parse => rw [seqStep_parse s hs] at h; cases h; exact .parses hs
  | validate =>
    rw [seqStep_validate s hs] at h
    cases h
    rcases validateStep_cases s with ⟨r, hv, e⟩ | ⟨hv, e⟩ <;> rw [e]
    · exact .rejects r hs hv
    · exact .accepts hs hv
  | dispatch =>
    cases hp : s.seq.loadPending with
    | false => exact absurd ((running_iff s).2 (.inr ⟨hs, hp⟩)) running
    | true =>
      obtain ⟨i, p, hi, plays, rfl⟩ := loadStep_next (seqStep_load s hs hp ▸ h)
      exact .loads i p hs hp hi plays

namespace SeqSteps
variable {s t : State}

/-- SEQ writes neither the configuration nor RX, and no time passes. -/
theorem frame (h : SeqSteps s t) : t.cfg = s.cfg ∧ t.rx = s.rx ∧ t.now = s.now := by
  cases h with
  | executes i _ _ hx =>
    obtain ⟨hcfg, hrx, -, hnow, -⟩ := hx.restSame
    exact ⟨hcfg, hrx, hnow⟩
  | _ => exact ⟨rfl, rfl, rfl⟩

theorem tx_cases (h : SeqSteps s t) : t.tx = s.tx ∨
    (s.tx.state = .idle ∧ t.tx.state = .shift ∧ t.trace = s.trace ++ [.frame t.tx.frame]) := by
  cases h with
  | executes i _ _ hx => exact hx.tx_cases
  | _ => exact .inl rfl

theorem trace_grows (h : SeqSteps s t) : s.trace <+: t.trace := by
  cases h with
  | executes i _ _ hx => exact hx.trace_grows
  | rejects r _ _ => exact ⟨_, rfl⟩
  | _ => exact ⟨[], List.append_nil _⟩

end SeqSteps

/-! ## What every move keeps -/

/-- A byte changes RX, and delivers a unit to SEQ or the trace; nothing else (R260 to R263). -/
theorem rxByte_frame (b : Byte) (s : State) : (rxByte b s).cfg = s.cfg ∧ (rxByte b s).fb = s.fb ∧
    (rxByte b s).tx = s.tx ∧ (rxByte b s).now = s.now := by
  rcases rxByte_cases b s with ⟨u, rx', e⟩ | ⟨rx', e⟩ <;> rw [e] <;> simp

theorem deliver_trace_grows (s : State) (u : CmdUnit) : s.trace <+: (s.deliver u).trace := by
  by_cases h : s.seq.state = .await
  · rw [State.deliver_await s u h]
  · rw [State.deliver_busy s u h]
    exact ⟨_, rfl⟩

theorem act_cfg {m : Move} {s t : State} (h : act m s = .next t) : t.cfg = s.cfg := by
  cases m with
  | tick dt => exact (passTime_frame h).1
  | rx b => cases h; exact (rxByte_frame b s).1
  | seq => exact (seqStep_seqSteps h).frame.1
  | tx => exact (txStep_frame h).1
  | reset => cases h; rfl

theorem passTime_now_le {dt : Rat} {s t : State} (h : passTime dt s = .next t) : s.now ≤ t.now := by
  rcases passTime_cases dt s with e | ⟨hdt, -, e⟩ | ⟨_, hdt, -, -, -, e⟩ | ⟨-, -, e⟩ <;> rw [e] at h <;> cases h
  · exact le_rfl
  · simpa using hdt
  · simpa using hdt

theorem txStep_now {s t : State} (h : txStep s = .next t) : t.now = s.now := by
  rcases txStep_cases s with ⟨-, e⟩ | ⟨-, -, e⟩ | ⟨-, -, e⟩ | ⟨-, -, e⟩ | ⟨_, -, -, -, e⟩ | ⟨_, -, -, -, e⟩ <;>
    rw [e] at h <;> cases h <;> rfl

/-- Real time never runs backwards, not even at a reset (log entry 13). -/
theorem act_now_le {m : Move} {s t : State} (h : act m s = .next t) : s.now ≤ t.now := by
  cases m with
  | tick dt => exact passTime_now_le h
  | rx b => cases h; exact (rxByte_frame b s).2.2.2.ge
  | seq => exact (seqStep_seqSteps h).frame.2.2.ge
  | tx => exact (txStep_now h).ge
  | reset => cases h; exact le_rfl

theorem act_trace_grows {m : Move} {s t : State} (hm : m ≠ .reset) (h : act m s = .next t) : s.trace <+: t.trace := by
  cases m with
  | tick dt =>
    obtain ⟨-, -, -, -, htrace, -⟩ := passTime_frame h
    rw [htrace]
  | rx b =>
    cases h
    rcases rxByte_cases b s with ⟨u, rx', e⟩ | ⟨rx', e⟩ <;> rw [e]
    exact deliver_trace_grows s u
  | seq => exact (seqStep_seqSteps h).trace_grows
  | tx =>
    obtain ⟨-, -, -, -, htrace⟩ := txStep_frame h
    rw [htrace]
  | reset => exact absurd rfl hm

/-- What every move but a reset keeps holds after any moves without a reset. -/
theorem runMoves_keeps {P : State → Prop} (keeps : ∀ m s t, m ≠ .reset → P s → act m s = .next t → P t)
    {ms : List Move} {s t : State} (hr : Move.reset ∉ ms) (hs : P s) (h : runMoves ms s = .next t) : P t := by
  induction ms generalizing s with
  | nil => cases h; exact hs
  | cons m ms ih =>
    obtain ⟨hm, hms⟩ := List.ne_and_not_mem_of_not_mem_cons hr
    obtain ⟨u, hu, ht⟩ := (andThen_eq_next _ _ _).1 h
    exact ih hms (keeps m s u hm.symm hs hu) ht

/-- Settles O3: a step is its move, and no move writes the configuration. -/
theorem configurationIsNeverWritten : Obligations.ConfigurationIsNeverWritten := by
  intro s t h
  obtain ⟨-, hact⟩ := step_next s t h
  exact (act_cfg hact).trans s.popMove_cfg

/-- Settles O54: every move but a reset appends to the trace. -/
theorem traceOnlyGrows : Obligations.TraceOnlyGrows := by
  intro ms s t hr h
  obtain ⟨es, hes⟩ := runMoves_keeps (P := fun u => s.trace <+: u.trace)
    (fun m u v hm hu huv => hu.trans (act_trace_grows hm huv)) hr ⟨[], List.append_nil _⟩ h
  exact ⟨es, hes.symm⟩

/-! ## TX and time -/

/-- The passing of time leaves the wire's level (R48). -/
theorem passTime_dout {dt : Rat} {s t : State} (h : passTime dt s = .next t) : t.tx.dout = s.tx.dout := by
  have elapse : (s.elapse dt).tx.dout = s.tx.dout := by unfold State.elapse; split <;> rfl
  rcases passTime_cases dt s with e | ⟨-, -, e⟩ | ⟨_, -, -, -, -, e⟩ | ⟨-, -, e⟩ <;> rw [e] at h <;> cases h
  · rfl
  · exact elapse
  · exact elapse

/-- Settles O36: RX's step leaves TX, and SEQ's changes it by a recorded hand-over alone. -/
theorem wireIsDrivenOnlyByTx : Obligations.WireIsDrivenOnlyByTx := by
  intro m s t h hne
  cases m with
  | tick dt => exact .inr (.inl ⟨dt, rfl, passTime_dout h⟩)
  | rx b => cases h; exact absurd (rxByte_frame b s).2.2.1 hne
  | seq =>
    rcases (seqStep_seqSteps h).tx_cases with e | handOver
    · exact absurd e hne
    · exact .inr (.inr (.inr ⟨rfl, handOver⟩))
  | tx => exact .inl rfl
  | reset => exact .inr (.inr (.inl rfl))

theorem passTime_rest {dt : Rat} {s : State} (hs : s.tx.state ≠ .shift) :
    passTime dt s = .next (if 0 ≤ dt then s.elapse dt else s) := by
  unfold passTime
  cases h : s.tx.state with
  | shift => exact absurd h hs
  | _ => rfl

theorem passTime_shift {dt : Rat} {s : State} {x : Bool} (hs : s.tx.state = .shift)
    (hx : s.tx.currentBit? = some x) : passTime dt s =
      .next (if 0 ≤ dt ∧ s.tx.phaseTime + dt ≤ longest s.cfg x s.tx.phase then s.elapse dt else s) := by
  simp [passTime, hs, hx]

theorem Tx.currentBit?_of_word {tx : Tx} {w : WireWord} (hw : tx.frame[tx.pix]? = some w) :
    tx.currentBit? = some (w.getLsbD tx.bit) := by
  simp [Tx.currentBit?, hw]

theorem State.elapse_idle {s : State} (hs : s.tx.state = .idle) (dt : Rat) :
    s.elapse dt = { s with now := s.now + dt } := by
  simp [State.elapse, hs]

theorem State.elapse_latch {s : State} (hs : s.tx.state = .latch) (dt : Rat) :
    s.elapse dt = { s with now := s.now + dt, tx := { s.tx with lowTime := s.tx.lowTime + dt } } := by
  simp [State.elapse, hs]

theorem State.elapse_shift {s : State} (hs : s.tx.state = .shift) (dt : Rat) :
    s.elapse dt = { s with now := s.now + dt, tx := { s.tx with phaseTime := s.tx.phaseTime + dt } } := by
  simp [State.elapse, hs]

theorem txStep_idle {s : State} (hs : s.tx.state = .idle) : txStep s = .next s := by
  simp [txStep, hs]

theorem txStep_latch {s : State} (hs : s.tx.state = .latch) :
    txStep s = .next (if s.cfg.tLatch ≤ s.tx.lowTime then s.endLatch else s) := by
  simp [txStep, hs]

/-- The longest duration of a phase, in the terms of R111 and R184. -/
theorem longest_eq (cfg : Config) (x : Bool) (ph : TxPhase) :
    longest cfg x ph = (if ph = .high then (if x then cfg.t1h else cfg.t0h)
      else cfg.tBit - (if x then cfg.t1h else cfg.t0h)) * (1 + cfg.jitter) := by
  cases ph <;> rfl

/-- Settles O35: `passTime` and `txStep` for each state of TX. -/
theorem latchGapAndIdle : Obligations.LatchGapAndIdle := by
  intro s dt
  refine ⟨fun hs hdt => ?_, fun w hi d hs hw hhi hd => ?_, fun hs hdt => ?_, fun hs hdt => ?_, fun hs hl => ?_,
    fun hs hl => ?_, fun hs => txStep_idle hs⟩
  · rw [act, passTime_rest (by simp [hs]), if_pos hdt, State.elapse_idle hs]
  · have most : longest s.cfg (w.getLsbD s.tx.bit) s.tx.phase = d := by rw [longest_eq, hd, hhi]
    have passes := passTime_shift (dt := dt) hs (Tx.currentBit?_of_word hw)
    rw [most] at passes
    refine ⟨fun hdt hle => ?_, fun late => ?_⟩
    · rw [act, passes, if_pos ⟨hdt, hle⟩, State.elapse_shift hs]
    · have stops : ¬ (0 ≤ dt ∧ s.tx.phaseTime + dt ≤ d) := fun ⟨hdt, hle⟩ =>
        late.elim (not_lt_of_ge hdt) (not_lt_of_ge hle)
      rw [act, passes, if_neg stops]
  · rw [act, passTime_rest hs, if_neg (not_le_of_gt hdt)]
  · rw [act, passTime_rest (by simp [hs]), if_pos hdt, State.elapse_latch hs]
  · rw [act, txStep_latch hs, if_pos hl]
    rfl
  · rw [act, txStep_latch hs, if_neg (not_le_of_gt hl)]

/-! ## The latch gap after a reset (R44, R341) -/

/-- `T_LATCH` has passed since `t0`, or TX has been in `LATCH` since then and its low time runs no faster than real time. -/
def LatchedSince (t0 : Rat) (s : State) : Prop :=
  (s.tx.state = .latch ∧ t0 + s.tx.lowTime ≤ s.now) ∨ t0 + s.cfg.tLatch ≤ s.now

theorem passTime_latch_lowTime {dt : Rat} {s t : State} (hs : s.tx.state = .latch) (h : passTime dt s = .next t) :
    t.tx.state = .latch ∧ t.now - t.tx.lowTime = s.now - s.tx.lowTime := by
  rw [passTime_rest (by simp [hs])] at h
  split at h <;> cases h
  · simp [State.elapse_latch hs, hs]
  · exact ⟨hs, rfl⟩

theorem act_latchedSince {t0 : Rat} {m : Move} {s t : State} (hm : m ≠ .reset) (hs : LatchedSince t0 s)
    (h : act m s = .next t) : LatchedSince t0 t := by
  rcases hs with ⟨hlatch, hlow⟩ | passed
  · cases m with
    | tick dt =>
      obtain ⟨hstate, hsame⟩ := passTime_latch_lowTime hlatch h
      exact .inl ⟨hstate, by linarith⟩
    | rx b =>
      cases h
      obtain ⟨-, -, htx, hnow⟩ := rxByte_frame b s
      exact .inl (by rw [htx, hnow]; exact ⟨hlatch, hlow⟩)
    | seq =>
      have steps := seqStep_seqSteps h
      rcases steps.tx_cases with htx | ⟨idle, -⟩
      · exact .inl (by rw [htx, steps.frame.2.2]; exact ⟨hlatch, hlow⟩)
      · cases hlatch.symm.trans idle
    | tx =>
      rw [act, txStep_latch hlatch] at h
      split at h
      · next done =>
        cases h
        exact .inr (le_trans (by simpa using done) hlow)
      · cases h
        exact .inl ⟨hlatch, hlow⟩
    | reset => exact absurd rfl hm
  · right
    rw [act_cfg h]
    exact passed.trans (act_now_le h)

theorem runMoves_latchedSince {t0 : Rat} {ms : List Move} {s t : State} (hr : Move.reset ∉ ms)
    (hs : LatchedSince t0 s) (h : runMoves ms s = .next t) (ht : t.tx.state ≠ .latch) : t0 + s.cfg.tLatch ≤ t.now := by
  obtain ⟨hcfg, ⟨hlatch, -⟩ | passed⟩ := runMoves_keeps (P := fun u => u.cfg = s.cfg ∧ LatchedSince t0 u)
    (fun _ _ _ hm hu huv => ⟨(act_cfg huv).trans hu.1, act_latchedSince hm hu.2 huv⟩) hr ⟨rfl, hs⟩ h
  · exact absurd hlatch ht
  · rwa [hcfg] at passed

/-- Settles O40: `LatchedSince` holds at the reset and every move keeps it. -/
theorem firstFrameFollowsTheLatchGap : Obligations.FirstFrameFollowsTheLatchGap := by
  refine ⟨fun cfg ms t hr h ht => ?_, fun s ms t hr h ht => ?_⟩
  · have start : LatchedSince 0 (State.resetWith cfg) := .inl ⟨rfl, by simp [State.resetWith]⟩
    have gap := runMoves_latchedSince hr start h ht
    rwa [zero_add] at gap
  · have start : LatchedSince s.now s.hwReset := .inl ⟨rfl, by simp [State.resetWith]⟩
    exact runMoves_latchedSince (s := s.hwReset) hr start h ht

/-! ## The moves still to come play no part in a move (log entry 2) -/

/-- `s` with the moves `a` still to come. -/
def State.withAgenda (s : State) (a : List Move) : State := { s with agenda := a }

@[simp] theorem State.withAgenda_cfg (s : State) (a : List Move) : (s.withAgenda a).cfg = s.cfg := rfl
@[simp] theorem State.withAgenda_seq (s : State) (a : List Move) : (s.withAgenda a).seq = s.seq := rfl
@[simp] theorem State.withAgenda_tx (s : State) (a : List Move) : (s.withAgenda a).tx = s.tx := rfl

/-- `f` does the same whatever moves are still to come. -/
def IgnoresAgenda (f : State → Host.Outcome State Fault Refusal) : Prop :=
  ∀ a s, f (s.withAgenda a) = andThen (f s) fun t => .next (t.withAgenda a)

theorem IgnoresAgenda.andThen {f : State → Host.Outcome State Fault Refusal} (hf : IgnoresAgenda f) (a : List Move)
    (s : State) (g : State → Host.Outcome State Fault Refusal) :
    andThen (f (s.withAgenda a)) g = andThen (f s) fun t => g (t.withAgenda a) := by
  rw [hf a s]
  cases f s <;> rfl

theorem elapse_withAgenda (dt : Rat) (a : List Move) (s : State) :
    (s.withAgenda a).elapse dt = (s.elapse dt).withAgenda a := by
  cases hs : s.tx.state <;> simp [State.elapse, hs, State.withAgenda]

theorem withAgenda_ite (c : Prop) [Decidable c] (s t : State) (a : List Move) :
    (if c then s else t).withAgenda a = if c then s.withAgenda a else t.withAgenda a := by
  split <;> rfl

theorem andThen_ite {σ τ φ ρ : Type} (c : Prop) [Decidable c] (o o' : Host.Outcome σ φ ρ)
    (f : σ → Host.Outcome τ φ ρ) : andThen (if c then o else o') f = if c then andThen o f else andThen o' f := by
  split <;> rfl

theorem passTime_ignoresAgenda (dt : Rat) : IgnoresAgenda (passTime dt) := by
  intro a s
  unfold passTime
  simp only [elapse_withAgenda, State.withAgenda_tx]
  split
  · rw [andThen_next, withAgenda_ite]
  · rw [andThen_next, withAgenda_ite]
  · split
    · rfl
    · rw [andThen_next, withAgenda_ite]
      rfl

theorem txStep_ignoresAgenda : IgnoresAgenda txStep := by
  intro a s
  unfold txStep
  simp only [State.withAgenda_tx]
  split
  · rfl
  · rw [andThen_next, withAgenda_ite]
    rfl
  · split
    · rfl
    · rw [andThen_next, withAgenda_ite]
      rfl

theorem deliver_withAgenda (u : CmdUnit) (a : List Move) (s : State) :
    (s.withAgenda a).deliver u = (s.deliver u).withAgenda a := by
  unfold State.deliver
  rw [withAgenda_ite]
  rfl

theorem rxByte_withAgenda (b : Byte) (a : List Move) (s : State) :
    rxByte b (s.withAgenda a) = (rxByte b s).withAgenda a := by
  unfold rxByte
  simp only [State.withAgenda_cfg]
  split
  · unfold rxLine
    rw [withAgenda_ite, withAgenda_ite, deliver_withAgenda]
    rfl
  · unfold rxFixed2
    rw [withAgenda_ite, deliver_withAgenda]
    rfl

theorem playPattern_ignoresAgenda (p : Pattern) : IgnoresAgenda (playPattern p) := by
  intro a s
  unfold playPattern
  split
  · rfl
  · rw [andThen_ite]
    rfl

theorem execTransmit_ignoresAgenda (fr : List WireWord) : IgnoresAgenda (execTransmit fr) := by
  intro a s
  unfold execTransmit
  rw [andThen_ite]
  rfl

theorem execGet_ignoresAgenda (k : Int) : IgnoresAgenda (execGet k) := by
  intro a s
  unfold execGet
  rw [andThen_ite, show (s.withAgenda a).readFB k.toNat = s.readFB k.toNat from rfl]
  cases s.readFB k.toNat <;> rfl

theorem execSet_ignoresAgenda (p : Int) (px : Pixel) : IgnoresAgenda (execSet p px) := by
  intro a s
  unfold execSet
  rw [andThen_ite]
  rfl

theorem execDelay_ignoresAgenda (d : Rat) : IgnoresAgenda (execDelay d) := by
  intro a s
  unfold execDelay
  simp only [andThen_ite]
  rfl

theorem exec_ignoresAgenda (i : Instr) : IgnoresAgenda (exec i) := by
  intro a s
  cases i with
  | cmdFill c => exact playPattern_ignoresAgenda (.fillBounce c) a s
  | cmdDirA c =>
    change execCmdDirA c _ = andThen (execCmdDirA c s) _
    rw [execCmdDirA_eq, execCmdDirA_eq]
    exact playPattern_ignoresAgenda _ a s
  | cmdDirB d c =>
    change execCmdDirB d c _ = andThen (execCmdDirB d c s) _
    rw [execCmdDirB_eq, execCmdDirB_eq]
    exact playPattern_ignoresAgenda _ a s
  | set p px => exact execSet_ignoresAgenda p px a s
  | fill px => rfl
  | get k => exact execGet_ignoresAgenda k a s
  | scale => rfl
  | transmit fr => exact execTransmit_ignoresAgenda fr a s
  | render => exact execTransmit_ignoresAgenda (frameOf s.cfg s.fb) a s
  | delay d => exact execDelay_ignoresAgenda d a s
  | fillBounce c => exact playPattern_ignoresAgenda (.fillBounce c) a s
  | chaseA c => exact playPattern_ignoresAgenda (.chaseA c) a s
  | chaseB c => exact playPattern_ignoresAgenda (.chaseB c) a s
  | sectionFwd c => exact playPattern_ignoresAgenda (.sectionFwd c) a s
  | sectionRev c => exact playPattern_ignoresAgenda (.sectionRev c) a s
  | rainbow => exact playPattern_ignoresAgenda .rainbow a s

theorem runStep_ignoresAgenda : IgnoresAgenda runStep := by
  intro a s
  cases hi : s.seq.prog[s.seq.pc]? with
  | none => rw [runStep_none s hi, runStep_none (s.withAgenda a) hi]; rfl
  | some i => rw [runStep_some s i hi, runStep_some (s.withAgenda a) i hi]; exact exec_ignoresAgenda i a s

theorem loadStep_ignoresAgenda : IgnoresAgenda loadStep := by
  intro a s
  unfold loadStep
  rw [State.withAgenda_seq]
  split
  · exact exec_ignoresAgenda _ a s
  · rfl

theorem seqStep_ignoresAgenda : IgnoresAgenda seqStep := by
  intro a s
  unfold seqStep
  rw [State.withAgenda_seq]
  split
  · exact runStep_ignoresAgenda a s
  · rfl
  · rfl
  · unfold validateStep
    rw [State.withAgenda_seq]
    split <;> rfl
  · split
    · exact loadStep_ignoresAgenda a s
    · exact runStep_ignoresAgenda a s

theorem act_ignoresAgenda (m : Move) : IgnoresAgenda (act m) := by
  intro a s
  cases m with
  | tick dt => exact passTime_ignoresAgenda dt a s
  | rx b => rw [act, rxByte_withAgenda]; rfl
  | seq => exact seqStep_ignoresAgenda a s
  | tx => exact txStep_ignoresAgenda a s
  | reset => rfl

theorem core_run_succ (M : Host.Core) (k : Nat) (s : M.State) : M.run (k + 1) s = andThen (M.step s) (M.run k) := by
  rw [Host.Core.run]
  cases M.step s <;> rfl

/-- The first move of the agenda is the next step's, and the others are still to come after it. -/
theorem core_run_cons (k : Nat) (m : Move) (ms : List Move) {s : State} (hv : s.cfg.valid = true) :
    Sys2Proof.core.run (k + 1) (s.withAgenda (m :: ms)) =
      andThen (act m s) fun t => Sys2Proof.core.run k (t.withAgenda ms) := by
  have first : step (s.withAgenda (m :: ms)) = act m (s.withAgenda ms) := step_of_valid (s.withAgenda (m :: ms)) hv
  refine (core_run_succ core k _).trans ?_
  change andThen (step _) _ = _
  rw [first]
  exact (act_ignoresAgenda m).andThen ms s _

/-- Settles O21, by induction on the moves: the first is the next step, and what is still to come does not change what it
does. -/
theorem stepsAreTheAgendasMoves : Obligations.StepsAreTheAgendasMoves := by
  intro ms rest s hv
  change Sys2Proof.core.run ms.length (s.withAgenda (ms ++ rest)) = runMoves ms (s.withAgenda rest)
  induction ms generalizing s with
  | nil => rfl
  | cons m ms ih =>
    refine (core_run_cons ms.length m (ms ++ rest) hv).trans ?_
    rw [runMoves_cons, (act_ignoresAgenda m).andThen rest s]
    cases h : act m s with
    | next t => exact ih t ((act_cfg h).symm ▸ hv)
    | fault r => rfl
    | refused r => rfl

/-! ## The hold of SEQ (R40) -/

theorem holdOk_of_none {s : State} (h : s.seq.hold = .none) : HoldOk s := by
  simp [HoldOk, h]

/-- A hold is that of the RENDER or the DELAY at `pc` of a running program. -/
theorem HoldOk.cases {s : State} (h : HoldOk s) : s.seq.hold = .none ∨
    (s.seq.hold = .txBusy ∧ s.running = true ∧ s.seq.prog[s.seq.pc]? = some .render) ∨
    ∃ t0 d, s.seq.hold = .delay t0 d ∧ s.running = true ∧ s.seq.prog[s.seq.pc]? = some (.delay d) ∧
      0 ≤ t0 ∧ t0 ≤ s.now := by
  unfold HoldOk at h
  cases hd : s.seq.hold with
  | none => exact .inl rfl
  | txBusy =>
    rw [hd] at h
    exact .inr (.inl ⟨rfl, h⟩)
  | delay t0 d =>
    rw [hd] at h
    exact .inr (.inr ⟨t0, d, rfl, h⟩)

theorem HoldOk.none_of_not_running {s : State} (h : HoldOk s) (hr : s.running = false) : s.seq.hold = .none := by
  rcases h.cases with hn | ⟨-, hr', -⟩ | ⟨t0, d, -, hr', -⟩
  · exact hn
  · simp [hr] at hr'
  · simp [hr] at hr'

theorem HoldOk.none_of_other {s : State} (h : HoldOk s) (hrender : s.seq.prog[s.seq.pc]? ≠ some .render)
    (hdelay : ∀ d, s.seq.prog[s.seq.pc]? ≠ some (.delay d)) : s.seq.hold = .none := by
  rcases h.cases with hn | ⟨-, -, hi⟩ | ⟨t0, d, -, -, hi, -⟩
  · exact hn
  · exact absurd hi hrender
  · exact absurd hi (hdelay d)

/-- The hold a DELAY issues or has issued is its own, and began in the past (R211). -/
theorem HoldOk.delayHold {s : State} (h : HoldOk s) (hnow : 0 ≤ s.now) {d : Rat}
    (hp : s.seq.prog[s.seq.pc]? = some (.delay d)) :
    (delayHold d s).2 = d ∧ 0 ≤ (delayHold d s).1 ∧ (delayHold d s).1 ≤ s.now := by
  rcases h.cases with hn | ⟨-, -, hi⟩ | ⟨t0, d', hd, -, hi, h0, hle⟩
  · simp [Machine.delayHold, hn, hnow]
  · cases hp.symm.trans hi
  · cases hp.symm.trans hi
    simp [Machine.delayHold, hd, h0, hle]

theorem running_congr {s t : State} (hstate : t.seq.state = s.seq.state)
    (hpending : t.seq.loadPending = s.seq.loadPending) : t.running = s.running := by
  rw [State.running, hstate, hpending, State.running]

theorem HoldOk.congr {s t : State} (h : HoldOk s) (hseq : t.seq = s.seq) (hnow : s.now ≤ t.now) : HoldOk t := by
  have hr : t.running = s.running := by rw [State.running, hseq, State.running]
  unfold HoldOk at h ⊢
  rw [hseq, hr]
  cases hd : s.seq.hold with
  | none => trivial
  | txBusy => rwa [hd] at h
  | delay t0 d =>
    rw [hd] at h
    obtain ⟨running, hi, h0, hle⟩ := h
    exact ⟨running, hi, h0, hle.trans hnow⟩

/-! ## The parts of the invariant, where what they speak of stays -/

theorem SeqInv.congr {s t : State} (h : SeqInv s) (hcfg : t.cfg = s.cfg) (hseq : t.seq = s.seq)
    (hnow : s.now ≤ t.now) : SeqInv t where
  pc := hseq ▸ h.pc
  prog := hseq ▸ h.prog
  finished := by
    rw [State.running, hseq]
    exact h.finished
  hold := h.hold.congr hseq hnow
  cmd := hseq ▸ h.cmd
  pending := hseq ▸ h.pending
  parsed := by
    rw [hcfg, hseq]
    exact h.parsed

theorem RxInv.congr {s t : State} (h : RxInv s) (hrx : t.rx = s.rx) : RxInv t :=
  ⟨hrx ▸ h.buf, hrx ▸ h.ovf⟩

theorem TxInv.congr {s t : State} (h : TxInv s) (hcfg : t.cfg = s.cfg) (htx : t.tx = s.tx) : TxInv t where
  frame := by rw [hcfg, htx]; exact h.frame
  pix := by rw [hcfg, htx]; exact h.pix
  bit := htx ▸ h.bit
  line := htx ▸ h.line
  phaseTime := by rw [hcfg, htx]; exact h.phaseTime
  lowTime := htx ▸ h.lowTime

/-- What TX's step, time and the choice of a move leave as it was needs no second proof. -/
theorem Inv.of_tx {s t : State} (h : Inv s) (hcfg : t.cfg = s.cfg) (hfb : t.fb = s.fb) (hseq : t.seq = s.seq)
    (hrx : t.rx = s.rx) (htrace : t.trace = s.trace) (hnow : s.now ≤ t.now) (htx : TxInv t) : Inv t where
  cfg := hcfg ▸ h.cfg
  memory := by rw [hcfg, hfb]; exact h.memory
  seq := h.seq.congr hcfg hseq hnow
  rx := h.rx.congr hrx
  tx := htx
  now := h.now.trans hnow
  frames := by rw [hcfg, htrace]; exact h.frames

/-! ## Reset meets the invariant -/

theorem Config.valid_pos {cfg : Config} (hv : cfg.valid = true) : 0 < cfg.n :=
  (cfg.shapeValid_iff.1 (cfg.valid_iff.1 hv).1).1

/-- Every phase may last some time (R14, R184). -/
theorem longest_nonneg {cfg : Config} (hv : cfg.valid = true) (x : Bool) (ph : TxPhase) : 0 ≤ longest cfg x ph := by
  obtain ⟨h0, h0half, h1half, h1, -, hj, -⟩ := cfg.wireValid_iff.1 (cfg.valid_iff.1 hv).2.1
  have high : 0 ≤ highTime cfg x ∧ highTime cfg x ≤ cfg.tBit := by
    cases x with
    | false => exact ⟨h0.le, by show cfg.t0h ≤ cfg.tBit; linarith⟩
    | true => exact ⟨by show 0 ≤ cfg.t1h; linarith, h1.le⟩
  have nominal_nonneg : 0 ≤ nominal cfg x ph := by
    cases ph with
    | high => exact high.1
    | low => exact sub_nonneg.2 high.2
  exact mul_nonneg nominal_nonneg (by linarith)

theorem resetWith_seqInv {cfg : Config} (hv : cfg.valid = true) : SeqInv (State.resetWith cfg) where
  pc := Nat.zero_le _
  prog := cfg.bootProgram_inProgram hv
  finished h := by cases h
  hold := holdOk_of_none rfl
  cmd := trivial
  pending h := by cases h
  parsed h := by cases h

theorem resetWith_txInv {cfg : Config} (hv : cfg.valid = true) : TxInv (State.resetWith cfg) where
  frame := List.length_replicate
  pix := Config.valid_pos hv
  bit := (by decide : 23 < 24)
  line := by simp [State.resetWith]
  phaseTime h := by cases h
  lowTime := le_rfl

/-- Settles O55: each part of the invariant, for the values R340 and log entry 3 give. -/
theorem resetMeetsTheInvariant : Obligations.ResetMeetsTheInvariant := fun cfg hv =>
  { cfg := hv
    memory := reset_wf cfg
    seq := resetWith_seqInv hv
    rx := ⟨Nat.zero_le _, fun h => by cases h⟩
    tx := resetWith_txInv hv
    now := le_rfl
    frames := fun _ h => by cases h }

/-! ## TX and time keep the invariant -/

theorem elapse_txInv {s : State} {dt : Rat} (h : TxInv s) (hdt : 0 ≤ dt)
    (hmax : s.tx.state = .shift → ∀ x, s.tx.currentBit? = some x → s.tx.phaseTime + dt ≤ longest s.cfg x s.tx.phase) :
    TxInv (s.elapse dt) := by
  cases hs : s.tx.state with
  | idle =>
    rw [State.elapse_idle hs]
    exact h.congr rfl rfl
  | latch =>
    rw [State.elapse_latch hs]
    exact ⟨h.frame, h.pix, h.bit, h.line, fun hshift => (by cases hs.symm.trans hshift), add_nonneg h.lowTime hdt⟩
  | shift =>
    rw [State.elapse_shift hs]
    exact ⟨h.frame, h.pix, h.bit, h.line, fun _ => ⟨add_nonneg (h.phaseTime hs).1 hdt, hmax hs⟩, h.lowTime⟩

theorem passTime_txInv {dt : Rat} {s t : State} (hs : TxInv s) (h : passTime dt s = .next t) : TxInv t := by
  rcases passTime_cases dt s with e | ⟨hdt, hrest, e⟩ | ⟨x, hdt, -, hx, hle, e⟩ | ⟨-, -, e⟩ <;> rw [e] at h <;> cases h
  · exact hs
  · exact elapse_txInv hs hdt fun hshift => absurd hshift hrest
  · refine elapse_txInv hs hdt fun _ y hy => ?_
    cases hx.symm.trans hy
    exact hle

/-- At the first instant of a phase (R181 to R183). -/
theorem txInv_of_phaseStart {s : State} (hv : s.cfg.valid = true) (frame : s.tx.frame.length = s.cfg.n)
    (pix : s.tx.pix < s.cfg.n) (bit : s.tx.bit < 24) (shift : s.tx.state = .shift)
    (line : s.tx.dout = .high ↔ s.tx.phase = .high) (start : s.tx.phaseTime = 0) (low : 0 ≤ s.tx.lowTime) :
    TxInv s where
  frame := frame
  pix := pix
  bit := bit
  line := by simp [shift, line]
  phaseTime _ := by
    rw [start]
    exact ⟨le_rfl, fun x _ => longest_nonneg hv x _⟩
  lowTime := low

theorem endPhase_txInv {s : State} (hv : s.cfg.valid = true) (h : TxInv s) (hs : s.tx.state = .shift) :
    TxInv s.endPhase := by
  rcases Tx.endPhase_cases s.cfg.n s.tx with ⟨-, e⟩ | ⟨hlow, -, -, e⟩ | ⟨-, -, e⟩ | ⟨-, hlast, -, e⟩ <;>
    rw [State.endPhase, e]
  · exact txInv_of_phaseStart hv h.frame h.pix h.bit hs (by simp) rfl h.lowTime
  · exact ⟨h.frame, h.pix, h.bit, by simp [h.line, hlow], fun hshift => (by cases hshift), le_rfl⟩
  · exact txInv_of_phaseStart hv h.frame h.pix (Nat.lt_of_le_of_lt (Nat.sub_le _ _) h.bit) hs (by simp) rfl h.lowTime
  · have pix : s.tx.pix + 1 < s.cfg.n := Nat.lt_of_le_of_ne h.pix hlast
    exact txInv_of_phaseStart hv h.frame pix (by decide : 23 < 24) hs (by simp) rfl h.lowTime

theorem endLatch_txInv {s : State} (h : TxInv s) (hs : s.tx.state = .latch) : TxInv s.endLatch :=
  ⟨h.frame, h.pix, h.bit, by simp [h.line, hs], fun hshift => (by cases hshift), h.lowTime⟩

theorem txStep_txInv {s t : State} (hv : s.cfg.valid = true) (hs : TxInv s) (h : txStep s = .next t) : TxInv t := by
  rcases txStep_cases s with ⟨-, e⟩ | ⟨hlatch, -, e⟩ | ⟨-, -, e⟩ | ⟨-, -, e⟩ | ⟨_, hshift, -, -, e⟩ | ⟨_, -, -, -, e⟩ <;>
    rw [e] at h <;> cases h
  · exact hs
  · exact endLatch_txInv hs hlatch
  · exact hs
  · exact endPhase_txInv hv hs hshift
  · exact hs

theorem passTime_inv {dt : Rat} {s t : State} (hs : Inv s) (h : passTime dt s = .next t) : Inv t := by
  obtain ⟨hcfg, hfb, hseq, hrx, htrace, -⟩ := passTime_frame h
  exact hs.of_tx hcfg hfb hseq hrx htrace (passTime_now_le h) (passTime_txInv hs.tx h)

theorem txStep_inv {s t : State} (hs : Inv s) (h : txStep s = .next t) : Inv t := by
  obtain ⟨hcfg, hfb, hseq, hrx, htrace⟩ := txStep_frame h
  exact hs.of_tx hcfg hfb hseq hrx htrace (txStep_now h).ge (txStep_txInv hs.cfg hs.tx h)

theorem popMove_inv {s : State} (h : Inv s) : Inv s.popMove :=
  h.of_tx s.popMove_cfg s.popMove_fb s.popMove_seq s.popMove_rx s.popMove_trace s.popMove_now.ge
    (h.tx.congr s.popMove_cfg s.popMove_tx)

theorem hwReset_inv {s : State} (h : Inv s) : Inv s.hwReset :=
  (resetMeetsTheInvariant s.cfg h.cfg).of_tx rfl rfl rfl rfl rfl h.now ((resetWith_txInv h.cfg).congr rfl rfl)

/-! ## RX keeps the invariant -/

/-- `rx_buf` never outgrows three bytes, and overflows only when it has three (R42, R260). -/
theorem rxLine_rxInv (b : Byte) {s : State} (h : RxInv s) : RxInv (rxLine b s) := by
  rcases rxLine_cases b s with ⟨-, e⟩ | ⟨-, hlt, e⟩ | ⟨-, hge, e⟩ <;> rw [e]
  · exact ⟨Nat.zero_le _, fun hovf => by cases hovf⟩
  · refine ⟨by simpa using hlt, fun hovf => ?_⟩
    have := h.ovf hovf
    omega
  · exact ⟨h.buf, fun _ => by have := h.buf; dsimp only; omega⟩

theorem rxFixed2_rxInv (b : Byte) {s : State} (h : RxInv s) : RxInv (rxFixed2 b s) := by
  rcases rxFixed2_cases b s with ⟨-, e⟩ | ⟨-, e⟩ <;> rw [e] <;> exact ⟨h.buf, h.ovf⟩

theorem rxByte_rxInv (b : Byte) {s : State} (h : RxInv s) : RxInv (rxByte b s) := by
  cases hm : s.cfg.unitMode with
  | line => rw [rxByte_line b s hm]; exact rxLine_rxInv b h
  | fixed2 => rw [rxByte_fixed2 b s hm]; exact rxFixed2_rxInv b h

/-- A unit SEQ accepts takes it from `AWAIT` to `PARSE`, with no program running before or after (R263). -/
theorem deliver_seqInv (u : CmdUnit) {s : State} (h : SeqInv s) : SeqInv (s.deliver u) := by
  by_cases hs : s.seq.state = .await
  · have idle : s.running = false := by simp [State.running, hs]
    rw [State.deliver_await s u hs]
    exact {
      pc := h.pc
      prog := h.prog
      finished := fun _ => h.finished idle
      hold := holdOk_of_none (h.hold.none_of_not_running idle)
      cmd := h.cmd
      pending := fun hp => by cases hs.symm.trans (h.pending hp).1
      parsed := fun hv => by cases hv }
  · rw [State.deliver_busy s u hs]
    exact h.congr rfl rfl le_rfl

theorem rxByte_seqInv (b : Byte) {s : State} (h : SeqInv s) : SeqInv (rxByte b s) := by
  rcases rxByte_cases b s with ⟨u, rx', e⟩ | ⟨rx', e⟩ <;> rw [e]
  · exact (deliver_seqInv u h).congr rfl rfl le_rfl
  · exact h.congr rfl rfl le_rfl

/-- Every frame in the trace has `N` words (R112), the invariant's `frames`. -/
def State.framesOk (s : State) : Prop := ∀ ws, Event.frame ws ∈ s.trace → ws.length = s.cfg.n

theorem State.framesOk.append {s t : State} {e : Event} (h : s.framesOk) (hcfg : t.cfg = s.cfg)
    (htrace : t.trace = s.trace ++ [e]) (he : ∀ ws, e = .frame ws → ws.length = s.cfg.n) : t.framesOk := by
  intro ws hws
  rw [htrace, List.mem_append, List.mem_singleton] at hws
  rw [hcfg]
  rcases hws with hold | hnew
  · exact h ws hold
  · exact he ws hnew.symm

theorem deliver_framesOk (u : CmdUnit) {s : State} (h : s.framesOk) : (s.deliver u).framesOk := by
  by_cases hs : s.seq.state = .await
  · rw [State.deliver_await s u hs]
    exact h
  · rw [State.deliver_busy s u hs]
    exact h.append (e := .dropped u) rfl rfl fun ws e => by cases e

theorem rxByte_framesOk (b : Byte) {s : State} (h : s.framesOk) : (rxByte b s).framesOk := by
  rcases rxByte_cases b s with ⟨u, rx', e⟩ | ⟨rx', e⟩ <;> rw [e]
  · exact deliver_framesOk u h
  · exact h

theorem rxByte_inv (b : Byte) {s : State} (h : Inv s) : Inv (rxByte b s) := by
  obtain ⟨hcfg, hfb, htx, hnow⟩ := rxByte_frame b s
  exact {
    cfg := hcfg ▸ h.cfg
    memory := by rw [hcfg, hfb]; exact h.memory
    seq := rxByte_seqInv b h.seq
    rx := rxByte_rxInv b h.rx
    tx := h.tx.congr hcfg htx
    now := hnow ▸ h.now
    frames := rxByte_framesOk b h.frames }

/-! ## SEQ keeps the invariant -/

namespace Executes
variable {s t : State} {i : Instr}

theorem memory_wf (h : Executes s i t) (hwf : Memory.wf s.cfg.n s.fb = true) : Memory.wf t.cfg.n t.fb = true := by
  cases h with
  | setInRange p px => exact writeFB_wf s p.toNat px hwf
  | fill px => exact fillFB_wf s px
  | _ => exact hwf

theorem txInv (h : Executes s i t) (hi : i.inProgram = true) (hv : s.cfg.valid = true) (hs : TxInv s) : TxInv t := by
  cases h with
  | render =>
    exact txInv_of_phaseStart (s := ((s.holdFor .none).handOver _).advance) hv (frameOf_length _ _)
      (Config.valid_pos hv) (by decide : 23 < 24) rfl (by simp) rfl hs.lowTime
  | transmit fr => cases hi
  | _ => exact hs.congr rfl rfl

theorem framesOk (h : Executes s i t) (hi : i.inProgram = true) (hs : s.framesOk) : t.framesOk := by
  cases h with
  | setOutOfRange p px => exact hs.append rfl rfl fun ws e => by cases e
  | render => exact hs.append rfl rfl fun ws e => by cases e; exact frameOf_length _ _
  | transmit fr => cases hi
  | _ => exact hs

/-- `pc` moves on by one at most. -/
theorem pc_le (h : Executes s i t) (hi : i.isMicro = true) : t.seq.pc ≤ s.seq.pc + 1 := by
  cases h with
  | load _ _ hn _ => simp [hi] at hn
  | _ => simp

/-- What an executed micro-operation leaves in `seq_hold` is nothing, or its own hold (R40, R180, R211). -/
theorem holdOk (h : Executes s i t) (hi : i.inProgram = true) (hp : s.seq.prog[s.seq.pc]? = some i)
    (running : s.running = true) (hs : HoldOk s) (hnow : 0 ≤ s.now) : HoldOk t := by
  cases h with
  | setInRange p px => exact holdOk_of_none (hs.none_of_other (by simp [hp]) (by simp [hp]))
  | setOutOfRange p px => exact holdOk_of_none (hs.none_of_other (by simp [hp]) (by simp [hp]))
  | render => exact holdOk_of_none rfl
  | renderHeld => exact ⟨running, hp⟩
  | delay d => exact holdOk_of_none rfl
  | delayHeld d =>
    obtain ⟨hd, h0, hle⟩ := hs.delayHold hnow hp
    exact ⟨running, by rw [hd]; exact hp, h0, hle⟩
  | load _ _ hn _ => simp [Instr.isMicro_of_inProgram hi] at hn
  | _ => cases hi

/-- A program that runs goes on running until its last micro-operation has completed. -/
theorem seqInv (h : Executes s i t) (hp : s.seq.prog[s.seq.pc]? = some i) (running : s.running = true) (hs : SeqInv s)
    (hnow : 0 ≤ s.now) : SeqInv t := by
  have hi : i.inProgram = true := hs.prog i (List.mem_of_getElem? hp)
  have micro : i.isMicro = true := Instr.isMicro_of_inProgram hi
  have hlt : s.seq.pc < s.seq.prog.length := (List.getElem?_eq_some_iff.1 hp).1
  obtain ⟨hstate, hunit, hcmd⟩ := h.seq_kept
  obtain ⟨hprog, hpending⟩ := h.prog_kept micro
  exact {
    pc := by
      rw [hprog]
      exact (h.pc_le micro).trans hlt
    prog := hprog ▸ hs.prog
    finished := fun hn => by
      rw [running_congr hstate hpending, running] at hn
      cases hn
    hold := h.holdOk hi hp running hs.hold hnow
    cmd := hcmd ▸ hs.cmd
    pending := by
      rw [hpending, hstate, hcmd]
      exact hs.pending
    parsed := by
      rw [hstate, hcmd, hunit, h.cfg_eq]
      exact hs.parsed }

end Executes

theorem goTo_await_seqInv {s : State} (h : SeqInv s) (finished : s.seq.pc = s.seq.prog.length)
    (hold : s.seq.hold = .none) (hp : s.seq.loadPending = false) : SeqInv (s.goTo .await) where
  pc := h.pc
  prog := h.prog
  finished _ := finished
  hold := holdOk_of_none hold
  cmd := h.cmd
  pending hp' := by cases hp.symm.trans hp'
  parsed hv := by cases hv

theorem SeqInv.not_pending {s : State} (h : SeqInv s) (hs : s.seq.state ≠ .dispatch) : s.seq.loadPending = false :=
  Bool.eq_false_iff.2 fun hp => hs (h.pending hp).1

theorem SeqInv.not_pending_of_running {s : State} (h : SeqInv s) (running : s.running = true) :
    s.seq.loadPending = false := by
  rcases (running_iff s).1 running with hb | ⟨-, hp⟩
  · exact h.not_pending (by simp [hb])
  · exact hp

/-- The program completes: `AWAIT`, with nothing left to run or to wait for (R274, R345). -/
theorem completes_seqInv {s : State} (h : SeqInv s) (running : s.running = true)
    (hn : s.seq.prog[s.seq.pc]? = none) : SeqInv (s.goTo .await) :=
  goTo_await_seqInv h (le_antisymm h.pc (List.getElem?_eq_none_iff.1 hn))
    (h.hold.none_of_other (by simp [hn]) (by simp [hn])) (h.not_pending_of_running running)

theorem parseStep_seqInv {s : State} (h : SeqInv s) (hs : s.seq.state = .parse) : SeqInv (parseStep s) := by
  have idle : s.running = false := by simp [State.running, hs]
  exact {
    pc := h.pc
    prog := h.prog
    finished := fun _ => h.finished idle
    hold := holdOk_of_none (h.hold.none_of_not_running idle)
    cmd := parse_inDigits _ _
    pending := fun hp => by cases (h.not_pending (by simp [hs])).symm.trans hp
    parsed := fun _ => rfl }

theorem rejects_seqInv {s : State} (e : Err) (h : SeqInv s) (hs : s.seq.state = .validate) :
    SeqInv ((s.raise e).goTo .await) := by
  have idle : s.running = false := by simp [State.running, hs]
  exact goTo_await_seqInv (h.congr rfl rfl le_rfl) (h.finished idle) (h.hold.none_of_not_running idle)
    (h.not_pending (by simp [hs]))

theorem accepts_seqInv {s : State} (h : SeqInv s) (hs : s.seq.state = .validate)
    (hv : validate s.seq.cmdUnit s.seq.cmd = none) :
    SeqInv { s with seq := { s.seq with state := .dispatch, loadPending := true } } := by
  have idle : s.running = false := by simp [State.running, hs]
  exact {
    pc := h.pc
    prog := h.prog
    finished := fun _ => h.finished idle
    hold := holdOk_of_none (h.hold.none_of_not_running idle)
    cmd := h.cmd
    pending := fun _ => ⟨rfl, ne_invalid_of_validate hv⟩
    parsed := fun hv => by cases hv }

theorem load_seqInv {s : State} {ops : List Instr} (h : SeqInv s) (hs : s.seq.state = .dispatch)
    (hp : s.seq.loadPending = true) (hops : ∀ i ∈ ops, i.inProgram = true) : SeqInv (s.load ops) := by
  have idle : s.running = false := by simp [State.running, hs, hp]
  exact {
    pc := Nat.zero_le _
    prog := hops
    finished := fun hn => by simp [State.running, hs] at hn
    hold := holdOk_of_none (h.hold.none_of_not_running idle)
    cmd := h.cmd
    pending := fun hp => by cases hp
    parsed := fun hv => by cases hs.symm.trans hv }

namespace SeqSteps
variable {s t : State}

theorem seqInv (h : SeqSteps s t) (hs : Inv s) : SeqInv t := by
  cases h with
  | executes i running hi hx => exact hx.seqInv hi running hs.seq hs.now
  | completes running hn => exact completes_seqInv hs.seq running hn
  | waits => exact hs.seq
  | parses hp => exact parseStep_seqInv hs.seq hp
  | rejects r hv _ => exact rejects_seqInv _ hs.seq hv
  | accepts hv hval => exact accepts_seqInv hs.seq hv hval
  | loads i p hd hp _ _ => exact load_seqInv hs.seq hd hp (s.cfg.expand_inProgram hs.cfg p)

theorem memory_wf (h : SeqSteps s t) (hs : Inv s) : Memory.wf t.cfg.n t.fb = true := by
  cases h with
  | executes i _ _ hx => exact hx.memory_wf hs.memory
  | _ => exact hs.memory

theorem txInv (h : SeqSteps s t) (hs : Inv s) : TxInv t := by
  cases h with
  | executes i _ hi hx => exact hx.txInv (hs.seq.prog i (List.mem_of_getElem? hi)) hs.cfg hs.tx
  | _ => exact hs.tx.congr rfl rfl

theorem framesOk (h : SeqSteps s t) (hs : Inv s) : t.framesOk := by
  cases h with
  | executes i _ hi hx => exact hx.framesOk (hs.seq.prog i (List.mem_of_getElem? hi)) hs.frames
  | rejects r => exact State.framesOk.append hs.frames rfl rfl fun ws e => by cases e
  | _ => exact hs.frames

theorem inv (h : SeqSteps s t) (hs : Inv s) : Inv t := by
  obtain ⟨hcfg, hrx, hnow⟩ := h.frame
  exact {
    cfg := hcfg ▸ hs.cfg
    memory := h.memory_wf hs
    seq := h.seqInv hs
    rx := hs.rx.congr hrx
    tx := h.txInv hs
    now := hnow ▸ hs.now
    frames := h.framesOk hs }

end SeqSteps

theorem act_inv {m : Move} {s t : State} (hs : Inv s) (h : act m s = .next t) : Inv t := by
  cases m with
  | tick dt => exact passTime_inv hs h
  | rx b => cases h; exact rxByte_inv b hs
  | seq => exact (seqStep_seqSteps h).inv hs
  | tx => exact txStep_inv hs h
  | reset => cases h; exact hwReset_inv hs

/-- Settles O56: a step is its move, and each agent's move, the passing of time and a reset keep the invariant. -/
theorem everyStepKeepsTheInvariant : Obligations.EveryStepKeepsTheInvariant := fun s t hs h =>
  act_inv (popMove_inv hs) (step_next s t h).2

/-! ## No step from the invariant stops (R53, R320) -/

theorem TxInv.currentBit?_eq_some {s : State} (h : TxInv s) : ∃ x, s.tx.currentBit? = some x := by
  have hlt : s.tx.pix < s.tx.frame.length := by rw [h.frame]; exact h.pix
  exact ⟨_, Tx.currentBit?_of_word (List.getElem?_eq_getElem hlt)⟩

theorem passTime_defined (dt : Rat) {s : State} (h : TxInv s) : ∃ t, passTime dt s = .next t := by
  rcases passTime_cases dt s with e | ⟨-, -, e⟩ | ⟨_, -, -, -, -, e⟩ | ⟨-, hn, -⟩
  · exact ⟨_, e⟩
  · exact ⟨_, e⟩
  · exact ⟨_, e⟩
  · obtain ⟨x, hx⟩ := h.currentBit?_eq_some
    cases hn.symm.trans hx

theorem txStep_defined {s : State} (h : TxInv s) : ∃ t, txStep s = .next t := by
  rcases txStep_cases s with ⟨-, e⟩ | ⟨-, -, e⟩ | ⟨-, -, e⟩ | ⟨-, hn, -⟩ | ⟨_, -, -, -, e⟩ | ⟨_, -, -, -, e⟩
  case inr.inr.inr.inl =>
    obtain ⟨x, hx⟩ := h.currentBit?_eq_some
    cases hn.symm.trans hx
  all_goals exact ⟨_, e⟩

theorem execTransmit_defined (fr : List WireWord) (s : State) : ∃ t, execTransmit fr s = .next t := by
  rcases execTransmit_cases fr s with ⟨-, e⟩ | ⟨-, e⟩ <;> exact ⟨_, e⟩

theorem exec_defined_of_inProgram {i : Instr} (hi : i.inProgram = true) (s : State) : ∃ t, exec i s = .next t := by
  cases i with
  | set p px => rcases execSet_cases p px s with ⟨-, e⟩ | ⟨-, e⟩ <;> exact ⟨_, e⟩
  | render => exact execTransmit_defined (frameOf s.cfg s.fb) s
  | delay d => rcases execDelay_cases d s with ⟨-, e⟩ | ⟨-, e⟩ <;> exact ⟨_, e⟩
  | _ => cases hi

theorem runStep_defined {s : State} (h : SeqInv s) : ∃ t, runStep s = .next t := by
  cases hi : s.seq.prog[s.seq.pc]? with
  | none => exact ⟨_, runStep_none s hi⟩
  | some i =>
    rw [runStep_some s i hi]
    exact exec_defined_of_inProgram (h.prog i (List.mem_of_getElem? hi)) s

/-- A pattern whose colour index is in [0, 9] finds its palette entry (R75). -/
theorem playPattern_defined {p : Pattern} (hp : p.wf = true) {s : State} (hv : s.cfg.valid = true) :
    ∃ t, playPattern p s = .next t := by
  rcases playPattern_cases p s with ⟨-, e⟩ | ⟨c, hc, hn, -⟩
  · exact ⟨_, e⟩
  · have has := s.cfg.valid_paletteHas hv c ((Pattern.wf_iff p).1 hp c hc)
    cases has.symm.trans hn

theorem execCmdDirA_defined {c : Nat} (hc : c ≤ 9) {s : State} (hv : s.cfg.valid = true) :
    ∃ t, execCmdDirA c s = .next t := by
  rw [execCmdDirA_eq]
  refine playPattern_defined ?_ hv
  split <;> exact decide_eq_true hc

theorem execCmdDirB_defined (d : Nat) {c : Nat} (hc : c ≤ 9) {s : State} (hv : s.cfg.valid = true) :
    ∃ t, execCmdDirB d c s = .next t := by
  rw [execCmdDirB_eq]
  refine playPattern_defined ?_ hv
  split <;> exact decide_eq_true hc

theorem loadStep_defined {s : State} (hv : s.cfg.valid = true) (hd : s.seq.cmd.inDigits) (hc : s.seq.cmd ≠ .invalid) :
    ∃ t, loadStep s = .next t := by
  unfold loadStep
  cases hcmd : s.seq.cmd with
  | invalid => exact absurd hcmd hc
  | fill c =>
    rw [hcmd] at hd
    exact playPattern_defined (p := .fillBounce c) (decide_eq_true hd) hv
  | directional d c =>
    rw [hcmd] at hd
    obtain ⟨-, hc9⟩ := hd
    by_cases hd0 : d = 0
    · simp only [Cmd.instr?, if_pos hd0]
      exact execCmdDirA_defined hc9 hv
    · simp only [Cmd.instr?, if_neg hd0]
      exact execCmdDirB_defined d hc9 hv

theorem seqStep_defined {s : State} (h : Inv s) : ∃ t, seqStep s = .next t := by
  cases hs : s.seq.state with
  | boot => rw [seqStep_boot s hs]; exact runStep_defined h.seq
  | await => exact ⟨_, seqStep_await s hs⟩
  | parse => exact ⟨_, seqStep_parse s hs⟩
  | validate => exact ⟨_, seqStep_validate s hs⟩
  | dispatch =>
    cases hp : s.seq.loadPending with
    | false => rw [seqStep_run s hs hp]; exact runStep_defined h.seq
    | true => rw [seqStep_load s hs hp]; exact loadStep_defined h.cfg h.seq.cmd (h.seq.pending hp).2

theorem act_defined (m : Move) {s : State} (h : Inv s) : ∃ t, act m s = .next t := by
  cases m with
  | tick dt => exact passTime_defined dt h.tx
  | rx b => exact ⟨_, rfl⟩
  | seq => exact seqStep_defined h
  | tx => exact txStep_defined h.tx
  | reset => exact ⟨_, rfl⟩

/-- Settles O57: a valid configuration is not refused, and every move is defined where the invariant holds. -/
theorem everyStepIsDefined : Obligations.EveryStepIsDefined := by
  intro s h
  rw [step_of_valid s h.cfg]
  exact act_defined s.nextMove (popMove_inv h)

end Sys2Proof.Machine
end

section
/-! PROOFS for spec/30_encoding.md (R100 to R116): what ParseLine answers, the decoder against the encoder and the
opcode map, the bytes of a line and of a command on their way to SEQ, and the frame on the wire. -/

namespace Sys2Proof

/-! ## Digits and their bytes (R105) -/

theorem isDigit_iff (b : Byte) : isDigit b = true ↔ 0x30 ≤ b.toNat ∧ b.toNat ≤ 0x39 := by
  simp [isDigit]

theorem digitByte_toNat {v : Nat} (h : v ≤ 9) : (digitByte v).toNat = 0x30 + v := by
  rw [digitByte, BitVec.toNat_ofNat, Nat.mod_eq_of_lt (by omega)]

theorem isDigit_digitByte {v : Nat} (h : v ≤ 9) : isDigit (digitByte v) = true := by
  rw [isDigit_iff, digitByte_toNat h]
  omega

theorem digit_digitByte {v : Nat} (h : v ≤ 9) : digit (digitByte v) = v := by
  rw [digit, digitByte_toNat h]
  omega

theorem digitByte_digit {b : Byte} (h : isDigit b = true) : digitByte (digit b) = b := by
  refine BitVec.eq_of_toNat_eq ?_
  rw [digitByte_toNat (digit_le_nine h), digit]
  have := (isDigit_iff b).1 h
  omega

/-! ## ParseLine, unit by unit (R265, R266) -/

theorem parse_overflow (mode : UnitMode) : parse mode .overflow = .invalid := by
  cases mode <;> rfl

theorem parse_line_one (b : Byte) : parse .line (.bytes [b]) = if isDigit b then .fill (digit b) else .invalid := rfl

theorem parse_fixed2_one (b : Byte) : parse .fixed2 (.bytes [b]) = .invalid := rfl

theorem parse_two (mode : UnitMode) (c0 c1 : Byte) : parse mode (.bytes [c0, c1]) =
    if isDigit c0 && isDigit c1 then .directional (digit c0) (digit c1) else .invalid := by
  cases mode <;> rfl

theorem parse_of_length (mode : UnitMode) {bs : List Byte} (h : bs = [] ∨ 2 < bs.length) :
    parse mode (.bytes bs) = .invalid := by
  match bs with
  | [] => cases mode <;> rfl
  | [_] => simp at h
  | [_, _] => simp at h
  | _ :: _ :: _ :: _ => cases mode <;> rfl

/-- Everything ParseLine can answer. -/
theorem parse_cases (mode : UnitMode) (u : CmdUnit) :
    parse mode u = .invalid ∨
    (∃ b, mode = .line ∧ u = .bytes [b] ∧ isDigit b = true ∧ parse mode u = .fill (digit b)) ∨
    ∃ c0 c1, u = .bytes [c0, c1] ∧ isDigit c0 = true ∧ isDigit c1 = true ∧
      parse mode u = .directional (digit c0) (digit c1) := by
  match u with
  | .overflow => exact .inl (parse_overflow mode)
  | .bytes [] => exact .inl (parse_of_length mode (.inl rfl))
  | .bytes [b] =>
    cases mode with
    | line =>
      rw [parse_line_one]
      cases hb : isDigit b with
      | false => exact .inl rfl
      | true => exact .inr (.inl ⟨b, rfl, rfl, hb, rfl⟩)
    | fixed2 => exact .inl (parse_fixed2_one b)
  | .bytes [c0, c1] =>
    rw [parse_two]
    cases h : isDigit c0 && isDigit c1 with
    | false => exact .inl rfl
    | true =>
      obtain ⟨h0, h1⟩ := Bool.and_eq_true_iff.1 h
      exact .inr (.inr ⟨c0, c1, rfl, h0, h1, rfl⟩)
  | .bytes (_ :: _ :: _ :: _) => exact .inl (parse_of_length mode (.inr (by simp)))

/-! ## The decoder is ParseLine: Validate rejects only what ParseLine did not read (R267, R268) -/

theorem validate_of_inDigits (u : CmdUnit) {c : Cmd} (h : c.inDigits) (hc : c ≠ .invalid) : validate u c = none := by
  cases c with
  | fill c => exact if_pos h
  | directional d c => exact if_pos h.2
  | invalid => exact absurd rfl hc

theorem Cmd.ne_invalid_of_instr? {c : Cmd} {i : Instr} (h : c.instr? = some i) : c ≠ .invalid := by
  rintro rfl
  cases h

theorem decode_of_instr? {mode : UnitMode} {u : CmdUnit} {i : Instr} (h : (parse mode u).instr? = some i) :
    decode mode u = .ok i := by
  have accepted := validate_of_inDigits u (parse_inDigits mode u) (Cmd.ne_invalid_of_instr? h)
  rw [decode, accepted, h]

theorem decode_of_invalid {mode : UnitMode} {u : CmdUnit} (h : parse mode u = .invalid) :
    decode mode u = .error (.malformedCommand u) := by
  rw [decode, h]
  rfl

theorem Cmd.invalid_or_instr? (c : Cmd) : c = .invalid ∨ ∃ i, c.instr? = some i := by
  cases c with
  | fill c => exact .inr ⟨_, rfl⟩
  | directional d c => exact .inr ⟨_, rfl⟩
  | invalid => exact .inl rfl

theorem decode_eq_ok_iff {mode : UnitMode} {u : CmdUnit} {i : Instr} :
    decode mode u = .ok i ↔ (parse mode u).instr? = some i := by
  refine ⟨fun h => ?_, decode_of_instr?⟩
  rcases (parse mode u).invalid_or_instr? with hn | ⟨j, hj⟩
  · cases (decode_of_invalid hn).symm.trans h
  · cases (decode_of_instr? hj).symm.trans h
    exact hj

theorem decode_eq_malformed_iff {mode : UnitMode} {u : CmdUnit} :
    decode mode u = .error (.malformedCommand u) ↔ parse mode u = .invalid := by
  refine ⟨fun h => ?_, decode_of_invalid⟩
  rcases (parse mode u).invalid_or_instr? with hn | ⟨j, hj⟩
  · exact hn
  · cases (decode_of_instr? hj).symm.trans h

/-! ## Encoder and decoder -/

/-- Everything a well-formed instruction with an encoding can be: a Fill, or one of the two Directional commands. -/
theorem encode_cases {cfg : Config} {i : Instr} {bs : List Byte} (hwf : i.wf cfg = true) (he : encode i = some bs) :
    (∃ c, c ≤ 9 ∧ cfg.unitMode = .line ∧ bs = [digitByte c] ∧ Cmd.instr? (.fill c) = some i) ∨
    ∃ d c, d ≤ 9 ∧ c ≤ 9 ∧ bs = [digitByte d, digitByte c] ∧ Cmd.instr? (.directional d c) = some i := by
  cases i with
  | cmdFill c =>
    cases he
    obtain ⟨hc, hline⟩ : c ≤ 9 ∧ cfg.unitMode = .line := by simpa [Instr.wf] using hwf
    exact .inl ⟨c, hc, hline, rfl, rfl⟩
  | cmdDirA c =>
    cases he
    exact .inr ⟨0, c, Nat.zero_le 9, of_decide_eq_true hwf, rfl, rfl⟩
  | cmdDirB d c =>
    cases he
    obtain ⟨⟨hd1, hd⟩, hc⟩ : (1 ≤ d ∧ d ≤ 9) ∧ c ≤ 9 := by simpa [Instr.wf] using hwf
    exact .inr ⟨d, c, hd, hc, rfl, by simp [Cmd.instr?, Nat.ne_of_gt hd1]⟩
  | _ => cases he

/-- ParseLine reads the instruction's command from its payload bytes. -/
theorem parse_encode {cfg : Config} {i : Instr} {bs : List Byte} (hwf : i.wf cfg = true) (he : encode i = some bs) :
    (parse cfg.unitMode (.bytes bs)).instr? = some i := by
  rcases encode_cases hwf he with ⟨c, hc, hline, rfl, hi⟩ | ⟨d, c, hd, hc, rfl, hi⟩
  · rwa [hline, parse_line_one, if_pos (isDigit_digitByte hc), digit_digitByte hc]
  · rwa [parse_two, isDigit_digitByte hd, isDigit_digitByte hc, digit_digitByte hd, digit_digitByte hc]

/-- Settles O5: ParseLine reads the command from the bytes the encoder writes, and Validate accepts it. -/
theorem decodeOfEncodeIsTheCommand : Obligations.DecodeOfEncodeIsTheCommand :=
  fun _ _ _ hwf he => decode_of_instr? (parse_encode hwf he)

/-- Settles O6: ParseLine reads digits alone, and a digit is the byte of its value. -/
theorem encodeOfDecodeIsTheUnit : Obligations.EncodeOfDecodeIsTheUnit := by
  intro mode u i h
  have hi := decode_eq_ok_iff.1 h
  rcases parse_cases mode u with e | ⟨b, -, rfl, hb, e⟩ | ⟨c0, c1, rfl, h0, h1, e⟩
  · rw [e] at hi
    cases hi
  · rw [e] at hi
    cases hi
    exact ⟨[b], by rw [encode, digitByte_digit hb], rfl⟩
  · rw [e] at hi
    cases hi
    refine ⟨[c0, c1], ?_, rfl⟩
    split
    · next zero => rw [encode, ← zero, digitByte_digit h0, digitByte_digit h1]
    · rw [encode, digitByte_digit h0, digitByte_digit h1]

/-! ## The opcode map (R106) -/

theorem highNibble_match_iff (b : Byte) : b &&& 0xF0#8 = 0x30#8 ↔ b.toNat / 16 = 3 := by
  revert b
  decide

theorem colourField_eq {w : Nat} (u : BitVec w) : colourField u = u.toNat % 16 := by
  rw [colourField, BitVec.extractLsb'_toNat, Nat.shiftRight_zero]

/-- A byte matches a digit's mask and range exactly when it is a digit. -/
theorem isDigit_iff_match (b : Byte) : isDigit b = true ↔ b &&& 0xF0#8 = 0x30#8 ∧ colourField b ≤ 9 := by
  rw [isDigit_iff, highNibble_match_iff, colourField_eq]
  omega

theorem colourField_of_isDigit {b : Byte} (h : isDigit b = true) : colourField b = digit b := by
  rw [colourField_eq, digit]
  have := (isDigit_iff b).1 h
  omega

theorem opcodeMapU1_eq (b : Byte) : opcodeMapU1 b = (parse .line (.bytes [b])).instr? := by
  rw [parse_line_one, opcodeMapU1]
  by_cases h : isDigit b = true
  · rw [if_pos ((isDigit_iff_match b).1 h), if_pos h, colourField_of_isDigit h, Cmd.instr?]
  · rw [if_neg (mt (isDigit_iff_match b).2 h), if_neg h, Cmd.instr?]

/-- Two units are the same when their bytes are. -/
theorem bitVec_append_inj {v w : Nat} {a a' : BitVec v} {b b' : BitVec w} :
    a ++ b = a' ++ b' ↔ a = a' ∧ b = b' := by
  refine ⟨fun h => ⟨?_, ?_⟩, fun ⟨ha, hb⟩ => by rw [ha, hb]⟩
  · rw [← BitVec.extractLsb'_append_eq_left (a := a) (b := b), h, BitVec.extractLsb'_append_eq_left]
  · rw [← BitVec.extractLsb'_append_eq_right (a := a) (b := b), h, BitVec.extractLsb'_append_eq_right]

theorem colourField_append (c0 c1 : Byte) : colourField (c0 ++ c1 : BitVec 16) = colourField c1 := by
  rw [colourField, BitVec.extractLsb'_append_eq_of_add_le (by decide), colourField]

/-- The direction field of a two-byte unit is the low half of its first byte. -/
theorem directionField_append (c0 c1 : Byte) : directionField (c0 ++ c1 : BitVec 16) = colourField c0 := by
  rw [directionField, BitVec.extractLsb'_append_eq_of_le (by decide), colourField]

theorem dirA_match_iff (c0 c1 : Byte) :
    (c0 ++ c1 : BitVec 16) &&& 0xFFF0#16 = 0x3030#16 ↔ c0 = 0x30#8 ∧ c1 &&& 0xF0#8 = 0x30#8 := by
  rw [show (0xFFF0#16) = BitVec.allOnes 8 ++ 0xF0#8 from rfl, show (0x3030#16) = 0x30#8 ++ 0x30#8 from rfl,
    BitVec.and_append, bitVec_append_inj, BitVec.and_allOnes]

theorem dirB_match_iff (c0 c1 : Byte) :
    (c0 ++ c1 : BitVec 16) &&& 0xF0F0#16 = 0x3030#16 ↔ c0 &&& 0xF0#8 = 0x30#8 ∧ c1 &&& 0xF0#8 = 0x30#8 := by
  rw [show (0xF0F0#16) = 0xF0#8 ++ 0xF0#8 from rfl, show (0x3030#16) = 0x30#8 ++ 0x30#8 from rfl,
    BitVec.and_append, bitVec_append_inj]

/-- The row of direction 0: the first byte is '0' and the second a digit. -/
theorem dirA_row_iff (c0 c1 : Byte) :
    ((c0 ++ c1 : BitVec 16) &&& 0xFFF0#16 = 0x3030#16 ∧ colourField (c0 ++ c1 : BitVec 16) ≤ 9) ↔
      (isDigit c0 = true ∧ isDigit c1 = true) ∧ digit c0 = 0 := by
  have zero : c0 = 0x30#8 ↔ isDigit c0 = true ∧ digit c0 = 0 := by
    rw [← BitVec.toNat_inj, isDigit_iff, digit]
    change c0.toNat = 48 ↔ _
    omega
  rw [dirA_match_iff, colourField_append, isDigit_iff_match c1, zero]
  tauto

/-- The row of the other directions: two digits, the first not '0'. -/
theorem dirB_row_iff (c0 c1 : Byte) :
    ((c0 ++ c1 : BitVec 16) &&& 0xF0F0#16 = 0x3030#16 ∧ 1 ≤ directionField (c0 ++ c1 : BitVec 16) ∧
        directionField (c0 ++ c1 : BitVec 16) ≤ 9 ∧ colourField (c0 ++ c1 : BitVec 16) ≤ 9) ↔
      (isDigit c0 = true ∧ isDigit c1 = true) ∧ digit c0 ≠ 0 := by
  rw [dirB_match_iff, directionField_append, colourField_append]
  constructor
  · rintro ⟨⟨m0, m1⟩, d1, d9, c9⟩
    have h0 := (isDigit_iff_match c0).2 ⟨m0, d9⟩
    rw [colourField_of_isDigit h0] at d1
    exact ⟨⟨h0, (isDigit_iff_match c1).2 ⟨m1, c9⟩⟩, by omega⟩
  · rintro ⟨⟨h0, h1⟩, nonzero⟩
    obtain ⟨m0, d9⟩ := (isDigit_iff_match c0).1 h0
    obtain ⟨m1, c9⟩ := (isDigit_iff_match c1).1 h1
    exact ⟨⟨m0, m1⟩, by rw [colourField_of_isDigit h0]; omega, d9, c9⟩

theorem opcodeMapU2_eq (mode : UnitMode) (c0 c1 : Byte) :
    opcodeMapU2 (c0 ++ c1 : BitVec 16) = (parse mode (.bytes [c0, c1])).instr? := by
  rw [opcodeMapU2, parse_two]
  by_cases digits : isDigit c0 = true ∧ isDigit c1 = true
  · have both : (isDigit c0 && isDigit c1) = true := Bool.and_eq_true_iff.2 digits
    have colour : colourField (c0 ++ c1 : BitVec 16) = digit c1 := by
      rw [colourField_append, colourField_of_isDigit digits.2]
    have direction : directionField (c0 ++ c1 : BitVec 16) = digit c0 := by
      rw [directionField_append, colourField_of_isDigit digits.1]
    rw [if_pos both, Cmd.instr?]
    by_cases zero : digit c0 = 0
    · rw [if_pos ((dirA_row_iff c0 c1).2 ⟨digits, zero⟩), if_pos zero, colour]
    · rw [if_neg fun row => zero ((dirA_row_iff c0 c1).1 row).2, if_pos ((dirB_row_iff c0 c1).2 ⟨digits, zero⟩),
        if_neg zero, colour, direction]
  · rw [if_neg fun row => digits ((dirA_row_iff c0 c1).1 row).1,
      if_neg fun row => digits ((dirB_row_iff c0 c1).1 row).1, if_neg (mt Bool.and_eq_true_iff.1 digits), Cmd.instr?]

/-- Settles O7: the rows a unit matches are what ParseLine reads from it. -/
theorem decodeIsTheOpcodeMap : Obligations.DecodeIsTheOpcodeMap := by
  refine ⟨fun c0 i => ?_, fun c0 i h => ?_, fun mode c0 c1 i => ?_⟩
  · rw [decode_eq_ok_iff, opcodeMapU1_eq]
  · cases (decode_of_invalid (parse_fixed2_one c0)).symm.trans h
  · rw [decode_eq_ok_iff, opcodeMapU2_eq mode]

/-! ## Malformed units (R107, R108) -/

theorem parse_two_eq_invalid_iff (mode : UnitMode) (c0 c1 : Byte) :
    parse mode (.bytes [c0, c1]) = .invalid ↔ ∃ b ∈ [c0, c1], ¬ isDigit b = true := by
  rw [parse_two]
  cases h0 : isDigit c0 <;> cases h1 : isDigit c1 <;> simp [h0, h1]

theorem parse_line_eq_invalid_iff (u : CmdUnit) : parse .line u = .invalid ↔
    u = .overflow ∨ ∃ bs, u = .bytes bs ∧ (bs = [] ∨ 2 < bs.length ∨ ∃ b ∈ bs, ¬ isDigit b = true) := by
  match u with
  | .overflow => simp [parse_overflow]
  | .bytes [] => simp [parse_of_length]
  | .bytes [b] => simp [parse_line_one]
  | .bytes [c0, c1] => simp [parse_two_eq_invalid_iff]
  | .bytes (_ :: _ :: _ :: _) => simp [parse_of_length]

/-- Settles O8: what ParseLine does not read is malformed, and Validate accepts all it reads. -/
theorem malformedUnitsAreThese : Obligations.MalformedUnitsAreThese := by
  refine ⟨fun u => ?_, fun c0 c1 => ?_, fun mode u => ?_⟩
  · rw [decode_eq_malformed_iff, parse_line_eq_invalid_iff]
    simp only [isDigit_iff]
  · rw [decode_eq_malformed_iff, parse_two_eq_invalid_iff]
    simp only [isDigit_iff]
  · rw [decode_eq_malformed_iff]
    simp only [decode_eq_ok_iff]
    exact (parse mode u).invalid_or_instr?

/-- Settles O4: each word is written out, and the decoder evaluates on it. -/
theorem writtenWordsDecode : Obligations.WrittenWordsDecode :=
  ⟨rfl, rfl, rfl, rfl, rfl, rfl, rfl⟩

end Sys2Proof

namespace Sys2Proof.Machine

/-! ## PARSE and VALIDATE (R265 to R269) -/

/-- Settles O14: one equation of ParseLine for each length of the unit. -/
theorem parseStepRule : Obligations.ParseStepRule := by
  intro s hs
  refine ⟨parseStep s, seqStep_parse s hs, rfl, rfl, fun hu => ?_, fun bs hu hlen => ?_, fun b hu => ?_,
    fun a b hu => ?_⟩ <;> simp only [parseStep, hu]
  · exact parse_overflow _
  · exact parse_of_length _ hlen
  · cases s.cfg.unitMode with
    | line => simp [parse_line_one, isDigit_iff, digit]
    | fixed2 => simp [parse_fixed2_one]
  · simp only [parse_two, Bool.and_eq_true, isDigit_iff, digit]

theorem runMoves_singleton (m : Move) (s : State) : runMoves [m] s = act m s := by
  rw [runMoves_cons]
  cases act m s <;> rfl

/-- SEQ's two steps from `PARSE` are ParseLine and Validate. -/
theorem runMoves_parse_validate {s : State} (hs : s.seq.state = .parse) (ms : List Move) :
    runMoves (.seq :: .seq :: ms) s = runMoves ms (validateStep (parseStep s)) := by
  rw [runMoves_cons, act, seqStep_parse s hs, andThen_next, runMoves_cons, act, seqStep_validate (parseStep s) rfl,
    andThen_next]

theorem validateStep_of_invalid {s : State} (h : s.seq.cmd = .invalid) :
    validateStep s = (s.raise (.malformedCommand s.seq.cmdUnit)).goTo .await := by
  rw [validateStep, h]
  rfl

theorem validateStep_of_accepted {s : State} (h : validate s.seq.cmdUnit s.seq.cmd = none) :
    validateStep s = { s with seq := { s.seq with state := .dispatch, loadPending := true } } := by
  rw [validateStep, h]

/-- Settles O16: ParseLine reads no command from the unit, so Validate rejects it. -/
theorem malformedUnitIsIgnored : Obligations.MalformedUnitIsIgnored := by
  intro s hs hd
  have invalid : (parseStep s).seq.cmd = .invalid := decode_eq_malformed_iff.1 hd
  refine ⟨((parseStep s).raise (.malformedCommand s.seq.cmdUnit)).goTo .await, ?_, rfl, rfl, rfl, rfl, rfl, rfl, rfl,
    rfl, rfl⟩
  rw [runMoves_parse_validate hs, validateStep_of_invalid invalid, runMoves_nil]
  rfl

/-- SEQ's three steps from a unit ParseLine reads run its instruction (R265, R269, R270). -/
theorem runMoves_seq_of_parse {s : State} {i : Instr} (hs : s.seq.state = .parse)
    (hi : (parse s.cfg.unitMode s.seq.cmdUnit).instr? = some i) :
    runMoves [.seq, .seq, .seq] s = exec i { s with
      seq := { s.seq with state := .dispatch, cmd := parse s.cfg.unitMode s.seq.cmdUnit, loadPending := true } } := by
  have accepted : validate (parseStep s).seq.cmdUnit (parseStep s).seq.cmd = none :=
    validate_of_inDigits _ (parse_inDigits _ _) (Cmd.ne_invalid_of_instr? hi)
  rw [runMoves_parse_validate hs, validateStep_of_accepted accepted, runMoves_singleton, act, seqStep_load _ rfl rfl,
    loadStep_some _ i hi]
  rfl

/-! ## Bytes on their way to SEQ (R260 to R263) -/

/-- `s` with RX in the state `r`. -/
def State.withRx (s : State) (r : Rx) : State := { s with rx := r }

@[simp] theorem State.withRx_rx (s : State) (r : Rx) : (s.withRx r).rx = r := rfl

theorem deliver_withRx (s : State) (r : Rx) (u : CmdUnit) : (s.withRx r).deliver u = (s.deliver u).withRx r := by
  by_cases h : s.seq.state = .await
  · rw [State.deliver_await s u h, State.deliver_await (s.withRx r) u h]
    rfl
  · rw [State.deliver_busy s u h, State.deliver_busy (s.withRx r) u h]
    rfl

/-- RX after the bytes `bs` of an unfinished line: it keeps three of them and marks a longer line (R42, R260). -/
def Rx.ofLine (r : Rx) (bs : List Byte) : Rx := { r with buf := bs.take 3, ovf := decide (3 < bs.length) }

theorem Rx.ofLine_nil {r : Rx} (hbuf : r.buf = []) (hovf : r.ovf = false) : r.ofLine [] = r := by
  cases r
  cases hbuf
  cases hovf
  rfl

theorem rxLine_ofLine (s : State) (r : Rx) (bs : List Byte) {b : Byte} (hb : b ≠ lineFeed) :
    rxLine b (s.withRx (r.ofLine bs)) = s.withRx (r.ofLine (bs ++ [b])) := by
  have room : (r.ofLine bs).buf.length < 3 ↔ bs.length < 3 := by simp [Rx.ofLine]
  rcases rxLine_cases b (s.withRx (r.ofLine bs)) with ⟨hlf, -⟩ | ⟨-, hlt, e⟩ | ⟨-, hge, e⟩
  · exact absurd hlf hb
  · have short : bs.length < 3 := room.1 hlt
    have kept : (bs ++ [b]).take 3 = bs.take 3 ++ [b] := by
      rw [List.take_of_length_le (by simpa using short), List.take_of_length_le short.le]
    have fits : 3 < (bs ++ [b]).length ↔ 3 < bs.length := by
      rw [List.length_append, List.length_singleton]
      omega
    rw [e]
    simp only [State.withRx, Rx.ofLine, kept, fits]
  · have long : 3 ≤ bs.length := not_lt.1 (mt room.2 hge)
    have kept : (bs ++ [b]).take 3 = bs.take 3 := List.take_append_of_le_length long
    have longer : 3 < (bs ++ [b]).length := by simpa using Nat.lt_succ_of_le long
    rw [e]
    simp only [State.withRx, Rx.ofLine, kept, decide_eq_true longer]

theorem runMoves_rx_line (b : Byte) (ms : List Move) {s : State} (hm : s.cfg.unitMode = .line) :
    runMoves (.rx b :: ms) s = runMoves ms (rxLine b s) := by
  rw [runMoves_cons, act, andThen_next, rxByte_line b s hm]

theorem runMoves_rx_fixed2 (b : Byte) (ms : List Move) {s : State} (hm : s.cfg.unitMode = .fixed2) :
    runMoves (.rx b :: ms) s = runMoves ms (rxFixed2 b s) := by
  rw [runMoves_cons, act, andThen_next, rxByte_fixed2 b s hm]

/-- Bytes without an LF extend the unfinished line. -/
theorem runMoves_ofLine {bs : List Byte} (hbs : lineFeed ∉ bs) (ms : List Move) {s : State}
    (hm : s.cfg.unitMode = .line) (r : Rx) (old : List Byte) :
    runMoves (bs.map Move.rx ++ ms) (s.withRx (r.ofLine old)) = runMoves ms (s.withRx (r.ofLine (old ++ bs))) := by
  induction bs generalizing old with
  | nil => rw [List.append_nil]; rfl
  | cons b bs ih =>
    obtain ⟨hb, hbs⟩ := List.ne_and_not_mem_of_not_mem_cons hbs
    rw [List.map_cons, List.cons_append, runMoves_rx_line b _ (s := s.withRx (r.ofLine old)) hm,
      rxLine_ofLine s r old hb.symm, ih hbs, List.append_assoc, List.singleton_append]

/-- The LF delivers the line and leaves RX empty (R260). -/
theorem rxLine_lineFeed (s : State) {r : Rx} (hbuf : r.buf = []) (hovf : r.ovf = false) (bs : List Byte) :
    rxLine lineFeed (s.withRx (r.ofLine bs)) =
      (s.deliver (completeLine (r.ofLine bs).buf (r.ofLine bs).ovf)).withRx r := by
  rw [rxLine, if_pos rfl, deliver_withRx]
  conv_rhs => rw [← Rx.ofLine_nil hbuf hovf]
  rfl

/-- The unit of a finished line (R103, R261). -/
theorem completeLine_ofLine (r : Rx) (bs : List Byte) : completeLine (r.ofLine bs).buf (r.ofLine bs).ovf =
    if 3 < bs.length then .overflow
    else if bs.getLast? = some carriageReturn then .bytes bs.dropLast else .bytes bs := by
  by_cases h : 3 < bs.length
  · simp [completeLine, Rx.ofLine, h]
  · simp [completeLine, Rx.ofLine, h, List.take_of_length_le (not_lt.1 h)]

/-- RX keeps the line's bytes one after another, and the LF delivers them. -/
theorem runMoves_line {s : State} {bs : List Byte} (hm : s.cfg.unitMode = .line) (hbuf : s.rx.buf = [])
    (hovf : s.rx.ovf = false) (hbs : lineFeed ∉ bs) : runMoves ((bs ++ [lineFeed]).map Move.rx) s =
      .next (s.deliver (if 3 < bs.length then .overflow
        else if bs.getLast? = some carriageReturn then .bytes bs.dropLast else .bytes bs)) := by
  have empty : s = s.withRx (s.rx.ofLine []) := by rw [Rx.ofLine_nil hbuf hovf]; rfl
  calc runMoves ((bs ++ [lineFeed]).map Move.rx) s
    _ = runMoves (bs.map Move.rx ++ [.rx lineFeed]) (s.withRx (s.rx.ofLine [])) := by rw [List.map_append, ← empty]; rfl
    _ = runMoves [.rx lineFeed] (s.withRx (s.rx.ofLine bs)) := runMoves_ofLine hbs _ hm s.rx []
    _ = .next ((s.deliver (completeLine (s.rx.ofLine bs).buf (s.rx.ofLine bs).ovf)).withRx s.rx) := by
      rw [runMoves_rx_line lineFeed _ (s := s.withRx (s.rx.ofLine bs)) hm, rxLine_lineFeed s hbuf hovf, runMoves_nil]
    _ = _ := by rw [completeLine_ofLine, ← deliver_withRx]; rfl

/-- Settles O10: `runMoves_line`, with the LF and the CR as their bytes. -/
theorem lineIsDeliveredAsOneUnit : Obligations.LineIsDeliveredAsOneUnit :=
  fun _ _ hm hbuf hovf hbs => runMoves_line hm hbuf hovf hbs

/-! ## The bytes of a command (R103, R104, R114) -/

theorem isDigit_of_encode {cfg : Config} {i : Instr} {bs : List Byte} (hwf : i.wf cfg = true)
    (he : encode i = some bs) : ∀ b ∈ bs, isDigit b = true := by
  rcases encode_cases hwf he with ⟨c, hc, -, rfl, -⟩ | ⟨d, c, hd, hc, rfl, -⟩
  · simp [isDigit_digitByte hc]
  · simp [isDigit_digitByte hd, isDigit_digitByte hc]

theorem length_of_encode {cfg : Config} {i : Instr} {bs : List Byte} (hwf : i.wf cfg = true) (he : encode i = some bs) :
    bs.length ≤ 2 := by
  rcases encode_cases hwf he with ⟨c, -, -, rfl, -⟩ | ⟨d, c, -, -, rfl, -⟩ <;> simp

/-- A line of digits, with or without a CR before its LF, is delivered without it. -/
theorem runMoves_line_of_digits {s : State} {bs cr : List Byte} (hm : s.cfg.unitMode = .line) (hbuf : s.rx.buf = [])
    (hovf : s.rx.ovf = false) (hbs : ∀ b ∈ bs, isDigit b = true) (hlen : bs.length ≤ 2)
    (hcr : cr = [] ∨ cr = [carriageReturn]) :
    runMoves ((bs ++ cr ++ [lineFeed]).map Move.rx) s = .next (s.deliver (.bytes bs)) := by
  have noLF : lineFeed ∉ bs ++ cr := by
    intro h
    rcases List.mem_append.1 h with h | h
    · exact absurd (hbs _ h) (by decide)
    · rcases hcr with rfl | rfl
      · cases h
      · exact absurd h (by decide)
  have noCR : bs.getLast? ≠ some carriageReturn := fun h =>
    absurd (hbs _ (List.mem_of_getLast? h)) (by decide)
  rw [runMoves_line hm hbuf hovf noLF]
  rcases hcr with rfl | rfl
  · have fits : ¬ 3 < (bs ++ []).length := by rw [List.append_nil]; omega
    rw [if_neg fits, List.append_nil, if_neg noCR]
  · have fits : ¬ 3 < (bs ++ [carriageReturn]).length := by rw [List.length_append, List.length_singleton]; omega
    rw [if_neg fits, if_pos List.getLast?_concat, List.dropLast_concat]

/-- Two bytes in `FIXED2` mode are delivered as one unit (R262). -/
theorem runMoves_fixed2_pair {s : State} (hm : s.cfg.unitMode = .fixed2) (hh : s.rx.have_ = false) (c0 c1 : Byte) :
    runMoves ([c0, c1].map Move.rx) s =
      .next ((s.deliver (.bytes [c0, c1])).withRx { s.rx with hold := c0 }) := by
  have first : rxFixed2 c0 s = s.withRx { s.rx with hold := c0, have_ := true } := by
    rw [rxFixed2, hh]
    rfl
  have second : rxFixed2 c1 (s.withRx { s.rx with hold := c0, have_ := true }) =
      (s.deliver (.bytes [c0, c1])).withRx { s.rx with hold := c0 } := by
    rw [rxFixed2, State.withRx_rx, if_pos rfl, deliver_withRx, ← hh]
    rfl
  rw [List.map_cons, List.map_singleton, runMoves_rx_fixed2 c0 _ hm, first,
    runMoves_rx_fixed2 c1 _ (s := s.withRx { s.rx with hold := c0, have_ := true }) hm, second, runMoves_nil]

/-- A command's bytes reach SEQ as its payload, and RX changes in its held byte alone. -/
theorem runMoves_frameBytes {s : State} {i : Instr} {bs cr : List Byte} (hbuf : s.rx.buf = [])
    (hovf : s.rx.ovf = false) (hh : s.rx.have_ = false) (hwf : i.wf s.cfg = true) (he : encode i = some bs)
    (hcr : cr = [] ∨ (s.cfg.unitMode = .line ∧ cr = [carriageReturn])) :
    ∃ h, runMoves ((frameBytes s.cfg.unitMode (bs ++ cr)).map Move.rx) s =
      .next ((s.deliver (.bytes bs)).withRx { s.rx with hold := h }) := by
  cases hm : s.cfg.unitMode with
  | line =>
    refine ⟨s.rx.hold, ?_⟩
    rw [frameBytes, runMoves_line_of_digits hm hbuf hovf (isDigit_of_encode hwf he) (length_of_encode hwf he)
      (hcr.imp_right And.right), ← deliver_withRx]
    rfl
  | fixed2 =>
    have noCR : cr = [] := by simpa [hm] using hcr
    rcases encode_cases hwf he with ⟨c, -, hline, -⟩ | ⟨d, c, -, -, rfl, -⟩
    · cases hm.symm.trans hline
    · exact ⟨digitByte d, by rw [frameBytes, noCR, List.append_nil, runMoves_fixed2_pair hm hh]⟩

/-- Settles O19: the bytes deliver the payload, which ParseLine reads as the command (`parse_encode`). -/
theorem sentCommandRuns : Obligations.SentCommandRuns := by
  intro s i bs cr hs hbuf hovf hh hwf he hcr
  obtain ⟨h, sent⟩ := runMoves_frameBytes hbuf hovf hh hwf he hcr
  have parsed := parse_encode hwf he
  rw [runMoves_append, sent, andThen_next, State.deliver_await s _ hs, runMoves_seq_of_parse rfl parsed]
  exact ⟨_, rfl, rfl, parsed⟩

/-! ## Words, RENDER and the patterns as instructions (R110, R115) -/

/-- Settles O28: `pack` appends the three scaled channels, and each byte lane cuts its own out. -/
theorem wordPacksGreenRedBlue : Obligations.WordPacksGreenRedBlue := by
  intro px f
  refine ⟨?_, ?_, ?_⟩ <;> rw [pack]
  · exact BitVec.extractLsb'_append_eq_left
  · rw [BitVec.extractLsb'_append_eq_of_add_le (by decide)]
    exact BitVec.extractLsb'_append_eq_left
  · rw [BitVec.extractLsb'_append_eq_of_add_le (by decide)]
    exact BitVec.extractLsb'_append_eq_right

/-- Settles O41: RENDER is TRANSMIT of `frameOf`, by definition, and `execTransmit_cases` says what that does. -/
theorem renderTransmitsTheScaledFrame : Obligations.RenderTransmitsTheScaledFrame := by
  intro s
  refine ⟨rfl, fun idle => ?_, fun busy => ?_⟩ <;>
    rcases execTransmit_cases (frameOf s.cfg s.fb) s with ⟨hi, e⟩ | ⟨hb, e⟩
  · exact ⟨_, e, rfl, rfl, rfl, rfl, rfl⟩
  · exact absurd idle hb
  · exact absurd hi busy
  · exact e

/-- A pattern whose colour index is in [0, 9] is loaded: the palette has ten entries (R75). -/
theorem playPattern_loads {p : Pattern} {s : State} (hpalette : s.cfg.palette.length = 10)
    (hp : p.wf = true) : playPattern p s = .next (s.load (s.cfg.expand p)) := by
  rcases playPattern_cases p s with ⟨-, e⟩ | ⟨c, hc, hn, -⟩
  · exact e
  · have hc9 : c ≤ 9 := (Pattern.wf_iff p).1 hp c hc
    have has : s.cfg.paletteHas c = true := decide_eq_true (by omega)
    cases has.symm.trans hn

/-- Settles O43: each pattern, as an instruction, is its `playPattern`. -/
theorem patternsLoadTheirExpansion : Obligations.PatternsLoadTheirExpansion := by
  intro c s hpalette hc
  have indexed : decide (c ≤ 9) = true := decide_eq_true hc
  have loads (p : Pattern) (hp : p.wf = true) := playPattern_loads (s := s) hpalette hp
  exact ⟨loads (.fillBounce c) indexed, loads (.chaseA c) indexed, loads (.chaseB c) indexed,
    loads (.sectionFwd c) indexed, loads (.sectionRev c) indexed, loads .rainbow rfl⟩

/-! ## The phases of a frame (R111, R112, R182, R183) -/

/-- Bit `k` of frame `fr` in the order of the wire: word 0 first, most significant bit first (R112). -/
def frameBit? (fr : List WireWord) (k : Nat) : Option Bool := fr[k / 24]?.map fun w => w.getLsbD (23 - k % 24)

/-- Which phase of a symbol phase `q` of a frame is: symbol `k` has the phases `2k` and `2k + 1` (R111). -/
def phaseAt (q : Nat) : TxPhase := if q % 2 = 0 then .high else .low

/-- `p` can be phase `q` of frame `fr` on the wire: its level, and a duration in the tolerance of its bit. -/
def IsPhase (cfg : Config) (fr : List WireWord) (q : Nat) (p : Level × Rat) : Prop :=
  ∃ x, frameBit? fr (q / 2) = some x ∧ p.1 = (phaseAt q).level ∧
    shortest cfg x (phaseAt q) ≤ p.2 ∧ p.2 ≤ longest cfg x (phaseAt q)

/-- As far as `ps` goes, it is the phases of frame `fr` in order; what comes after the frame is not looked at. -/
def CarriesSoFar (cfg : Config) (fr : List WireWord) (ps : List (Level × Rat)) : Prop :=
  ∀ q p, q < 48 * fr.length → ps[q]? = some p → IsPhase cfg fr q p

theorem CarriesSoFar.nil (cfg : Config) (fr : List WireWord) : CarriesSoFar cfg fr [] := by
  intro q p _ h
  cases h

theorem CarriesSoFar.concat {cfg : Config} {fr : List WireWord} {ps : List (Level × Rat)} {p : Level × Rat}
    (h : CarriesSoFar cfg fr ps) (hp : IsPhase cfg fr ps.length p) : CarriesSoFar cfg fr (ps ++ [p]) := by
  intro q p' hq hp'
  rcases lt_or_ge q ps.length with old | new
  · exact h q p' hq (List.getElem?_append_left old ▸ hp')
  · have hlt : q < (ps ++ [p]).length := (List.getElem?_eq_some_iff.1 hp').1
    rw [List.length_append, List.length_singleton] at hlt
    obtain rfl : q = ps.length := by omega
    rw [List.getElem?_concat_length] at hp'
    cases hp'
    exact hp

/-- What follows a whole frame is not looked at. -/
theorem CarriesSoFar.append {cfg : Config} {fr : List WireWord} {ps : List (Level × Rat)} (h : CarriesSoFar cfg fr ps)
    (all : 48 * fr.length ≤ ps.length) (more : List (Level × Rat)) : CarriesSoFar cfg fr (ps ++ more) :=
  fun q p hq hp => h q p hq (List.getElem?_append_left (hq.trans_le all) ▸ hp)

/-- A record that holds every phase of the frame carries the frame. -/
theorem CarriesSoFar.carriesFrame {cfg : Config} {fr : List WireWord} {ps : List (Level × Rat)}
    (h : CarriesSoFar cfg fr ps) (all : 48 * fr.length ≤ ps.length) : CarriesFrame cfg fr ps := by
  intro k w hw j hj
  have hk : k < fr.length := (List.getElem?_eq_some_iff.1 hw).1
  have phase (q : Nat) (hq : q / 2 = 24 * k + j) : ∃ d, ps[q]? = some ((phaseAt q).level, d) ∧
      shortest cfg (w.getLsbD (23 - j)) (phaseAt q) ≤ d ∧ d ≤ longest cfg (w.getLsbD (23 - j)) (phaseAt q) := by
    have hlt : q < 48 * fr.length := by omega
    have hps : ps[q]? = some ps[q] := List.getElem?_eq_getElem (by omega)
    obtain ⟨x, hx, hlevel, hmin, hmax⟩ := h q _ hlt hps
    have hbit : frameBit? fr (q / 2) = some (w.getLsbD (23 - j)) := by
      rw [hq, frameBit?, show (24 * k + j) / 24 = k by omega, show (24 * k + j) % 24 = j by omega, hw, Option.map_some]
    cases hx.symm.trans hbit
    exact ⟨_, by rw [hps, ← hlevel], hmin, hmax⟩
  have high : phaseAt (2 * (24 * k + j)) = .high := if_pos (by omega)
  have low : phaseAt (2 * (24 * k + j) + 1) = .low := if_neg (by omega)
  obtain ⟨dH, hH, minH, maxH⟩ := phase (2 * (24 * k + j)) (by omega)
  obtain ⟨dL, hL, minL, maxL⟩ := phase (2 * (24 * k + j) + 1) (by omega)
  rw [high] at hH minH maxH
  rw [low] at hL minL maxL
  exact ⟨dH, dL, hH, hL, minH, maxH, minL, maxL⟩

/-- How many phases of its frame TX has ended in `SHIFT`. -/
def Tx.phasesDone (t : Tx) : Nat := 2 * (24 * t.pix + (23 - t.bit)) + if t.phase = .high then 0 else 1

theorem Tx.phasesDone_high {t : Tx} (h : t.phase = .high) : t.phasesDone = 2 * (24 * t.pix + (23 - t.bit)) := by
  rw [Tx.phasesDone, if_pos h, Nat.add_zero]

theorem Tx.phasesDone_low {t : Tx} (h : t.phase = .low) : t.phasesDone = 2 * (24 * t.pix + (23 - t.bit)) + 1 := by
  rw [Tx.phasesDone, if_neg (by simp [h])]

theorem Tx.phaseAt_phasesDone (t : Tx) : phaseAt t.phasesDone = t.phase := by
  cases h : t.phase with
  | high =>
    rw [Tx.phasesDone_high h]
    exact if_pos (by omega)
  | low =>
    rw [Tx.phasesDone_low h]
    exact if_neg (by omega)

/-- The bit on the wire is that of the phase TX is in. -/
theorem Tx.frameBit?_phasesDone {t : Tx} (hb : t.bit < 24) : frameBit? t.frame (t.phasesDone / 2) = t.currentBit? := by
  have symbol : t.phasesDone / 2 = 24 * t.pix + (23 - t.bit) := by
    rw [Tx.phasesDone]
    split <;> omega
  rw [symbol, frameBit?, Tx.currentBit?, show (24 * t.pix + (23 - t.bit)) / 24 = t.pix by omega,
    show 23 - (24 * t.pix + (23 - t.bit)) % 24 = t.bit by omega]

/-- A phase TX may end is one the frame has there. -/
theorem isPhase_of_phaseMayEnd {cfg : Config} {t : Tx} {x : Bool} (hb : t.bit < 24) (hx : t.currentBit? = some x)
    (h : phaseMayEnd cfg x t = true) : IsPhase cfg t.frame t.phasesDone (t.phase.level, t.phaseTime) := by
  obtain ⟨hmin, hmax⟩ := Bool.and_eq_true_iff.1 h
  refine ⟨x, (Tx.frameBit?_phasesDone hb).trans hx, ?_⟩
  rw [t.phaseAt_phasesDone]
  exact ⟨rfl, of_decide_eq_true hmin, of_decide_eq_true hmax⟩

/-- The end of a phase leads to the next one of the frame, or, after the last, to `LATCH` (R182, R183). -/
theorem Tx.endPhase_phasesDone {n : Nat} {t : Tx} (hs : t.state = .shift) (hb : t.bit < 24) :
    (t.endPhase n).frame = t.frame ∧
    (((t.endPhase n).state = .shift ∧ (t.endPhase n).phasesDone = t.phasesDone + 1) ∨
      ((t.endPhase n).state = .latch ∧ t.phasesDone + 1 = 48 * n)) := by
  rcases Tx.endPhase_cases n t with ⟨hp, e⟩ | ⟨hp, hlast, hbit, e⟩ | ⟨hp, hpos, e⟩ | ⟨hp, -, hbit, e⟩ <;>
    refine ⟨by rw [e], ?_⟩
  · exact .inl ⟨by rw [e, hs], by rw [e, Tx.phasesDone_low rfl, Tx.phasesDone_high hp]⟩
  · exact .inr ⟨by rw [e], by rw [Tx.phasesDone_low hp]; omega⟩
  · refine .inl ⟨by rw [e, hs], ?_⟩
    rw [e, Tx.phasesDone_high rfl, Tx.phasesDone_low hp]
    dsimp only
    omega
  · refine .inl ⟨by rw [e, hs], ?_⟩
    rw [e, Tx.phasesDone_high rfl, Tx.phasesDone_low hp, hbit]
    dsimp only
    omega

/-! ## The frame on its way (R181 to R186, R190) -/

theorem rxByte_wire (b : Byte) (s : State) : (rxByte b s).wire = s.wire := by
  rcases rxByte_cases b s with ⟨u, rx', e⟩ | ⟨rx', e⟩ <;> rw [e]
  exact State.deliver_wire s u

theorem SeqSteps.wire_kept {s t : State} (h : SeqSteps s t) : t.wire = s.wire := by
  cases h with
  | executes i _ _ hx =>
    obtain ⟨-, -, hwire, -⟩ := hx.restSame
    exact hwire
  | _ => rfl

/-- No move but a reset takes anything from the wire record. -/
theorem act_wire_grows {m : Move} {s t : State} (hm : m ≠ .reset) (h : act m s = .next t) : s.wire <+: t.wire := by
  cases m with
  | tick dt =>
    obtain ⟨-, -, -, -, -, hwire⟩ := passTime_frame h
    rw [hwire]
  | rx b => cases h; rw [rxByte_wire]
  | seq => rw [(seqStep_seqSteps h).wire_kept]
  | tx =>
    rcases txStep_cases s with ⟨-, e⟩ | ⟨-, -, e⟩ | ⟨-, -, e⟩ | ⟨-, -, e⟩ | ⟨_, -, -, -, e⟩ | ⟨_, -, -, -, e⟩ <;>
      cases e.symm.trans h
    · exact ⟨[], List.append_nil _⟩
    · exact ⟨_, rfl⟩
    · exact ⟨[], List.append_nil _⟩
    · exact ⟨_, rfl⟩
    · exact ⟨[], List.append_nil _⟩
  | reset => exact absurd rfl hm

/-- Where TX is in the frame: its state, and in `SHIFT` the frame and the phases done. -/
def Tx.position (t : Tx) : TxState × List WireWord × Nat := (t.state, t.frame, t.phasesDone)

theorem passTime_position {dt : Rat} {s t : State} (h : passTime dt s = .next t) : t.tx.position = s.tx.position := by
  have elapse : (s.elapse dt).tx.position = s.tx.position := by
    unfold State.elapse
    split <;> rfl
  rcases passTime_cases dt s with e | ⟨-, -, e⟩ | ⟨_, -, -, -, -, e⟩ | ⟨-, -, e⟩ <;> cases e.symm.trans h
  · rfl
  · exact elapse
  · exact elapse

/-- A move other than TX's own and a reset leaves a busy TX where it is in its frame, and the wire record as it is. -/
theorem act_position {m : Move} {s t : State} (hm : m ≠ .reset) (htx : m ≠ .tx) (busy : s.tx.state ≠ .idle)
    (h : act m s = .next t) : t.tx.position = s.tx.position ∧ t.wire = s.wire := by
  cases m with
  | tick dt =>
    obtain ⟨-, -, -, -, -, hwire⟩ := passTime_frame h
    exact ⟨passTime_position h, hwire⟩
  | rx b =>
    cases h
    obtain ⟨-, -, htx, -⟩ := rxByte_frame b s
    exact ⟨by rw [htx], rxByte_wire b s⟩
  | seq =>
    have steps := seqStep_seqSteps h
    rcases steps.tx_cases with htx | ⟨idle, -⟩
    · exact ⟨by rw [htx], steps.wire_kept⟩
    · exact absurd idle busy
  | tx => exact absurd rfl htx
  | reset => exact absurd rfl hm

/-- How far frame `fr`, handed over when the wire record was `w0`, has come: `ps` is what the record has gained. -/
inductive FrameStage (fr : List WireWord) (w0 : List (Level × Rat)) (s : State) : Prop
  | shifting (ps : List (Level × Rat)) (wire : s.wire = w0 ++ ps) (carries : CarriesSoFar s.cfg fr ps)
    (position : s.tx.position = (.shift, fr, ps.length))
  | latching (ps : List (Level × Rat)) (wire : s.wire = w0 ++ ps) (carries : CarriesSoFar s.cfg fr ps)
    (state : s.tx.state = .latch) (all : ps.length = 48 * fr.length)
  | sent (ps : List (Level × Rat)) (wire : s.wire = w0 ++ ps) (carries : CarriesSoFar s.cfg fr ps) (d : Rat)
    (gap : ps[48 * fr.length]? = some (.low, d)) (long : s.cfg.tLatch ≤ d)

theorem frameStage_of_frameStart {s : State} (h : FrameStart s) : FrameStage s.tx.frame s.wire s := by
  obtain ⟨hs, hpix, hbit, hphase, -⟩ := h
  refine .shifting [] (List.append_nil _).symm (.nil _ _) ?_
  simp [Tx.position, Tx.phasesDone, hs, hpix, hbit, hphase]

/-- Once the frame and its latch gap are on the record they stay there. -/
theorem FrameStage.of_sent {fr : List WireWord} {w0 ps : List (Level × Rat)} {s t : State} {d : Rat}
    (wire : s.wire = w0 ++ ps) (carries : CarriesSoFar s.cfg fr ps) (gap : ps[48 * fr.length]? = some (.low, d))
    (long : s.cfg.tLatch ≤ d) (hcfg : t.cfg = s.cfg) (grows : s.wire <+: t.wire) : FrameStage fr w0 t := by
  obtain ⟨more, hmore⟩ := grows
  have hlt : 48 * fr.length < ps.length := (List.getElem?_eq_some_iff.1 gap).1
  refine .sent (ps ++ more) (by rw [← hmore, wire, List.append_assoc]) ?_ d
    ((List.getElem?_append_left hlt).trans gap) (hcfg ▸ long)
  rw [hcfg]
  exact carries.append hlt.le more

/-- TX's step in `SHIFT` ends a phase the frame has there, or waits. -/
theorem FrameStage.txStep_shifting {fr : List WireWord} {w0 ps : List (Level × Rat)} {s t : State} (inv : TxInv s)
    (wire : s.wire = w0 ++ ps) (carries : CarriesSoFar s.cfg fr ps) (position : s.tx.position = (.shift, fr, ps.length))
    (h : txStep s = .next t) : FrameStage fr w0 t := by
  obtain ⟨hs, hfr, hdone⟩ : s.tx.state = .shift ∧ s.tx.frame = fr ∧ s.tx.phasesDone = ps.length := by
    simpa [Tx.position] using position
  rcases txStep_cases s with ⟨hn, -⟩ | ⟨hn, -⟩ | ⟨hn, -⟩ | ⟨-, -, e⟩ | ⟨x, -, hx, ends, e⟩ | ⟨_, -, -, -, e⟩
  · cases hs.symm.trans hn
  · cases hs.symm.trans hn
  · cases hs.symm.trans hn
  · cases e.symm.trans h
  · cases e.symm.trans h
    have phase := isPhase_of_phaseMayEnd inv.bit hx ends
    rw [hfr, hdone] at phase
    have wire' : s.endPhase.wire = w0 ++ (ps ++ [(s.tx.phase.level, s.tx.phaseTime)]) := by
      rw [State.endPhase_wire, wire, List.append_assoc]
    obtain ⟨hfr', ⟨hs', hdone'⟩ | ⟨hs', hlast⟩⟩ := Tx.endPhase_phasesDone (n := s.cfg.n) hs inv.bit
    · refine .shifting _ wire' (carries.concat phase) ?_
      simp [Tx.position, hs', hfr', hdone', hfr, hdone]
    · refine .latching _ wire' (carries.concat phase) hs' ?_
      rw [← hfr, inv.frame, ← hlast, hdone, List.length_append, List.length_singleton]
  · cases e.symm.trans h
    exact .shifting ps wire carries position

/-- TX's step in `LATCH` ends a complete latch gap, or waits (R186). -/
theorem FrameStage.txStep_latching {fr : List WireWord} {w0 ps : List (Level × Rat)} {s t : State}
    (wire : s.wire = w0 ++ ps) (carries : CarriesSoFar s.cfg fr ps) (hs : s.tx.state = .latch)
    (all : ps.length = 48 * fr.length) (h : txStep s = .next t) : FrameStage fr w0 t := by
  rw [txStep_latch hs] at h
  split at h <;> cases h
  · next long =>
    refine .sent (ps ++ [(.low, s.tx.lowTime)]) ?_ (carries.append all.ge _) s.tx.lowTime ?_ long
    · rw [State.endLatch_wire, wire, List.append_assoc]
    · rw [← all, List.getElem?_concat_length]
  · exact .latching ps wire carries hs all

theorem act_frameStage {fr : List WireWord} {w0 : List (Level × Rat)} {m : Move} {s t : State} (inv : TxInv s)
    (hm : m ≠ .reset) (stage : FrameStage fr w0 s) (h : act m s = .next t) : FrameStage fr w0 t := by
  have hcfg := act_cfg h
  cases stage with
  | shifting ps wire carries position =>
    by_cases htx : m = .tx
    · subst htx
      exact .txStep_shifting inv wire carries position h
    · have hs : s.tx.state = .shift := congrArg Prod.fst position
      obtain ⟨hpos, hwire⟩ := act_position hm htx (by simp [hs]) h
      exact .shifting ps (hwire.trans wire) (hcfg ▸ carries) (hpos.trans position)
  | latching ps wire carries hs all =>
    by_cases htx : m = .tx
    · subst htx
      exact .txStep_latching wire carries hs all h
    · obtain ⟨hpos, hwire⟩ := act_position hm htx (by simp [hs]) h
      exact .latching ps (hwire.trans wire) (hcfg ▸ carries) ((congrArg Prod.fst hpos).trans hs) all
  | sent ps wire carries d gap long => exact .of_sent wire carries gap long hcfg (act_wire_grows hm h)

/-- Settles O37: the stage of the frame goes on from move to move, and past `SHIFT` all its phases are on the record. -/
theorem wireCarriesTheFrame : Obligations.WireCarriesTheFrame := by
  intro ms s t inv start hr h ht
  obtain ⟨-, hcfg, stage⟩ := runMoves_keeps
    (P := fun u => Inv u ∧ u.cfg = s.cfg ∧ FrameStage s.tx.frame s.wire u)
    (fun m u v hm ⟨hu, hcfg, stage⟩ huv =>
      ⟨act_inv hu huv, (act_cfg huv).trans hcfg, act_frameStage hu.tx hm stage huv⟩)
    hr ⟨inv, rfl, frameStage_of_frameStart start⟩ h
  cases stage with
  | shifting ps wire carries position => exact absurd (congrArg Prod.fst position) ht
  | latching ps wire carries hs all =>
    exact ⟨ps, wire, hcfg ▸ carries.carriesFrame all.ge, fun idle => by cases hs.symm.trans idle⟩
  | sent ps wire carries d gap long =>
    have hlt : 48 * s.tx.frame.length < ps.length := (List.getElem?_eq_some_iff.1 gap).1
    exact ⟨ps, wire, hcfg ▸ carries.carriesFrame hlt.le, fun _ => ⟨d, inv.tx.frame ▸ gap, hcfg ▸ long⟩⟩

end Sys2Proof.Machine
end

section
/-! PROOFS for spec/40_pixelbuffer.md (R140 to R142): SET, FILL and GET, each over the cases of its meaning. -/

namespace Sys2Proof

theorem Config.inRange_eq_false_iff (cfg : Config) (p : Int) :
    cfg.inRange p = false ↔ p < 0 ∨ (cfg.n : Int) - 1 < p := by
  rw [← Bool.not_eq_true, Config.inRange_iff]
  omega

end Sys2Proof

namespace Sys2Proof.Machine

/-- Settles O23: in range SET writes the one entry it names, outside it raises and writes none. -/
theorem setWritesOrSkips : Obligations.SetWritesOrSkips := by
  intro p px s hwf
  rw [Memory.wf_iff] at hwf
  rcases execSet_cases p px s with ⟨hp, e⟩ | ⟨hp, e⟩
  · rw [Config.inRange_iff] at hp
    have written : (s.writeFB p.toNat px).readFB p.toNat = some px :=
      readFB_writeFB_same s p.toNat px (by omega)
    have others (q : Nat) (hq : (q : Int) ≠ p) : (s.writeFB p.toNat px).readFB q = s.readFB q :=
      readFB_writeFB_other s p.toNat q px (by omega)
    exact ⟨(s.writeFB p.toNat px).advance, e, rfl, fun _ => ⟨written, rfl, others⟩, fun out => by omega⟩
  · rw [Config.inRange_eq_false_iff] at hp
    exact ⟨(s.raise (.boundaryOverrun p)).advance, e, rfl, fun inside => by omega, fun _ => ⟨rfl, rfl⟩⟩

/-- Settles O24: the filled framebuffer has `N` entries and reads as the pixel at each. -/
theorem fillWritesEveryEntry : Obligations.FillWritesEveryEntry := by
  intro px s
  have length : (s.fillFB px).fb.length = s.cfg.n := (Memory.wf_iff _ _).1 (fillFB_wf s px)
  exact ⟨(s.fillFB px).advance, rfl, rfl, length, readFB_fillFB s px⟩

/-- Settles O25: GET answers where the framebuffer has the entry, and a framebuffer of `N` pixels has every entry in
range. -/
theorem getReadsOrIsRefused : Obligations.GetReadsOrIsRefused := by
  intro k s hwf
  rcases execGet_cases k s with ⟨px, hk, hpx, e⟩ | ⟨hk | missing, e⟩
  · rw [Config.inRange_iff] at hk
    exact ⟨fun _ => ⟨px, hpx, e⟩, fun out => by omega⟩
  · rw [Config.inRange_eq_false_iff] at hk
    exact ⟨fun inside => by omega, fun _ => e⟩
  · refine ⟨fun inside => ?_, fun _ => e⟩
    obtain ⟨px, hpx⟩ := readFB_inRange s hwf k.toNat (by omega)
    cases hpx.symm.trans missing

end Sys2Proof.Machine
end

section
/-! PROOFS for spec/41_brightness.md (R160 to R165): a scaled channel as a floor in the naturals, the frame word of a
pixel, and how scaling orders channels and factors. -/

namespace Sys2Proof.Machine

/-! ## A scaled channel (R160) -/

theorem floor_scaled_le (x : Byte) {f : Rat} (hf : f ≤ 1) : ⌊(x.toNat : Rat) * f⌋₊ ≤ x.toNat :=
  Nat.floor_le_of_le (mul_le_of_le_one_right (Nat.cast_nonneg _) hf)

/-- The floor fits the byte, so `scaleChannel` loses nothing of it. -/
theorem scaleChannel_toNat (x : Byte) {f : Rat} (hf : f ≤ 1) :
    (scaleChannel x f).toNat = ⌊(x.toNat : Rat) * f⌋₊ :=
  (BitVec.toNat_ofNat ..).trans (Nat.mod_eq_of_lt ((floor_scaled_le x hf).trans_lt x.isLt))

theorem scaleChannel_toNat_eq_intFloor (x : Byte) {f : Rat} (h0 : 0 ≤ f) (hf : f ≤ 1) :
    ((scaleChannel x f).toNat : Int) = ⌊(x.toNat : Rat) * f⌋ := by
  rw [scaleChannel_toNat x hf]
  exact Int.natCast_floor_eq_floor (mul_nonneg (Nat.cast_nonneg _) h0)

/-- Settles O27: the floor in the naturals is the floor, and `f ≤ 1` bounds it by the channel. -/
theorem channelScalesByExactFloor : Obligations.ChannelScalesByExactFloor := by
  intro x f h0 h1
  refine ⟨scaleChannel_toNat_eq_intFloor x h0 h1, ?_⟩
  rw [scaleChannel_toNat x h1]
  exact floor_scaled_le x h1

/-! ## The words at factor 1 and at factor 0 (R164) -/

@[simp] theorem scaleChannel_one (x : Byte) : scaleChannel x 1 = x := by
  simp [scaleChannel]

@[simp] theorem scaleChannel_zero (x : Byte) : scaleChannel x 0 = 0 := by
  simp [scaleChannel]

@[simp] theorem pack_zero (px : Pixel) : pack px 0 = 0 := by
  simp [pack]

/-- A word of the frame is the packed pixel at its place, whatever the framebuffer's length. -/
theorem frameOf_getElem?_eq_pack {cfg : Config} {fb : Memory} {k : Nat} {w : WireWord} {px : Pixel}
    (hw : (frameOf cfg fb)[k]? = some w) (hpx : fb[k]? = some px) : w = pack px (factor cfg) := by
  have hk : k < cfg.n := frameOf_length cfg fb ▸ (List.getElem?_eq_some_iff.1 hw).1
  simpa [frameOf, hk, hpx] using hw.symm

/-- Settles O30: the byte lanes are the scaled channels (O28), and scaling by 1 keeps each, by 0 leaves none. -/
theorem scaleIdentityAndZero : Obligations.ScaleIdentityAndZero := by
  intro cfg fb k w px hw hpx
  rw [frameOf_getElem?_eq_pack hw hpx]
  refine ⟨fun one => ?_, fun zero => ?_⟩
  · simpa [one] using wordPacksGreenRedBlue px 1
  · rw [zero, pack_zero]

/-! ## Scaling is monotone (R165) -/

theorem scaleChannel_le_of_channel_le {x y : Byte} {f : Rat} (h0 : 0 ≤ f) (h1 : f ≤ 1) (hxy : x.toNat ≤ y.toNat) :
    (scaleChannel x f).toNat ≤ (scaleChannel y f).toNat := by
  rw [scaleChannel_toNat x h1, scaleChannel_toNat y h1]
  exact Nat.floor_mono (mul_le_mul_of_nonneg_right (Nat.cast_le.2 hxy) h0)

theorem scaleChannel_le_of_factor_le (x : Byte) {f g : Rat} (hfg : f ≤ g) (h1 : g ≤ 1) :
    (scaleChannel x f).toNat ≤ (scaleChannel x g).toNat := by
  rw [scaleChannel_toNat x (hfg.trans h1), scaleChannel_toNat x h1]
  exact Nat.floor_mono (mul_le_mul_of_nonneg_left hfg (Nat.cast_nonneg _))

/-- The brightest channel is kept by no factor below 1: the floor of `255 * f` is 255 only where `255 ≤ 255 * f`. -/
theorem one_le_of_scaleChannel_255 {f : Rat} (h1 : f ≤ 1) (kept : scaleChannel 255 f = 255) : 1 ≤ f := by
  have floor : ⌊((255 : Byte).toNat : Rat) * f⌋₊ = 255 := by
    rw [← scaleChannel_toNat 255 h1, kept]
    rfl
  have bound : (255 : Rat) ≤ 255 * f := (Nat.le_floor_iff' (by decide)).1 floor.ge
  linarith

/-- Settles O31: each clause is a fact about the floor, and channel 255 shows the factor. -/
theorem scalingIsMonotone : Obligations.ScalingIsMonotone := by
  intro f g h0 hfg hg
  have h1 : f ≤ 1 := hfg.trans hg
  refine ⟨fun x y => scaleChannel_le_of_channel_le h0 h1, fun x => scaleChannel_le_of_factor_le x hfg hg,
    scaleChannel_toNat_eq_intFloor 255 h0 h1, fun kept => ?_⟩
  exact h1.antisymm (one_le_of_scaleChannel_255 h1 (kept 255))

end Sys2Proof.Machine
end

section
/-! PROOFS for spec/42_transmitter.md (R180 to R191): TRANSMIT's hand-over, the two ends of a bit symbol, the tolerance of
what is on the wire record, and the least time from one hand-over to the next. -/

namespace Sys2Proof.Machine

/-! ## Hand-over and the phases of a symbol (R180 to R184) -/

/-- Settles O32: the two cases of TRANSMIT. -/
theorem transmitHandsOverOrHolds : Obligations.TransmitHandsOverOrHolds := by
  intro fr s
  rcases execTransmit_cases fr s with ⟨idle, e⟩ | ⟨busy, e⟩
  · exact ⟨fun _ => e, fun busy => absurd idle busy⟩
  · exact ⟨fun idle => absurd idle busy, fun _ => e⟩

/-- A phase may end exactly when it has lasted a duration of its interval (R184). -/
theorem phaseMayEnd_iff (cfg : Config) (x : Bool) (t : Tx) :
    phaseMayEnd cfg x t = true ↔ shortest cfg x t.phase ≤ t.phaseTime ∧ t.phaseTime ≤ longest cfg x t.phase := by
  simp [phaseMayEnd]

theorem txStep_shift {s : State} {x : Bool} (hs : s.tx.state = .shift) (hx : s.tx.currentBit? = some x) :
    txStep s = .next (if phaseMayEnd s.cfg x s.tx then s.endPhase else s) := by
  simp [txStep, hs, hx]

/-- TX's step in `SHIFT` ends the phase at a duration of its interval, and at no other (R182 to R184). -/
theorem txStep_phase {s : State} {x : Bool} (hs : s.tx.state = .shift) (hx : s.tx.currentBit? = some x) :
    (shortest s.cfg x s.tx.phase ≤ s.tx.phaseTime ∧ s.tx.phaseTime ≤ longest s.cfg x s.tx.phase →
      txStep s = .next s.endPhase) ∧
    (¬ (shortest s.cfg x s.tx.phase ≤ s.tx.phaseTime ∧ s.tx.phaseTime ≤ longest s.cfg x s.tx.phase) →
      txStep s = .next s) := by
  rw [← phaseMayEnd_iff, txStep_shift hs hx]
  exact ⟨fun ends => by rw [if_pos ends], fun waits => by rw [if_neg waits]⟩

theorem Tx.endPhase_high {t : Tx} (n : Nat) (h : t.phase = .high) : t.endPhase n = t.endHigh := by
  simp [Tx.endPhase, h]

theorem Tx.endPhase_low {t : Tx} (n : Nat) (h : t.phase = .low) : t.endPhase n = t.endLow n := by
  simp [Tx.endPhase, h]

/-- Settles O33: the interval is that of the high phase, and its end is `Tx.endHigh`. -/
theorem highPhaseEnds : Obligations.HighPhaseEnds := by
  intro s w hi hs hp hw hhi
  subst hhi
  have phase := txStep_phase hs (Tx.currentBit?_of_word hw)
  rw [State.endPhase, Tx.endPhase_high _ hp, hp] at phase
  exact phase

/-- Settles O34: the interval is that of the low phase, and its end is `Tx.endLow`. -/
theorem lowPhaseEnds : Obligations.LowPhaseEnds := by
  intro s w lo hs hp hw hpix hlo
  subst hlo
  have phase := txStep_phase hs (Tx.currentBit?_of_word hw)
  have last : s.tx.pix + 1 = s.cfg.n ↔ s.tx.pix = s.cfg.n - 1 := by omega
  rw [State.endPhase, Tx.endPhase_low _ hp, hp, Tx.endLow] at phase
  simp only [last] at phase
  exact phase

/-! ## The tolerance of the wire record (R184, R186, R350) -/

/-- Every entry of the wire record is a phase in its tolerance or a latch gap. -/
def WireOk (s : State) : Prop := ∀ p ∈ s.wire, PulseOk s.cfg p

theorem WireOk.congr {s t : State} (h : WireOk s) (hcfg : t.cfg = s.cfg) (hwire : t.wire = s.wire) : WireOk t := by
  rwa [WireOk, hcfg, hwire]

theorem WireOk.concat {s t : State} {p : Level × Rat} (h : WireOk s) (hcfg : t.cfg = s.cfg)
    (hwire : t.wire = s.wire ++ [p]) (hp : PulseOk s.cfg p) : WireOk t := by
  rw [WireOk, hcfg, hwire, List.forall_mem_append, List.forall_mem_singleton]
  exact ⟨h, hp⟩

theorem pulseOk_of_phaseMayEnd {cfg : Config} {x : Bool} {t : Tx} (h : phaseMayEnd cfg x t = true) :
    PulseOk cfg (t.phase.level, t.phaseTime) := by
  have inTolerance := (phaseMayEnd_iff cfg x t).1 h
  cases hp : t.phase <;> rw [hp] at inTolerance
  case high => exact ⟨x, inTolerance⟩
  case low => exact .inl ⟨x, inTolerance⟩

theorem txStep_wireOk {s t : State} (hs : WireOk s) (h : txStep s = .next t) : WireOk t := by
  rcases txStep_cases s with ⟨-, e⟩ | ⟨-, gap, e⟩ | ⟨-, -, e⟩ | ⟨-, -, e⟩ | ⟨x, -, -, ends, e⟩ | ⟨_, -, -, -, e⟩ <;>
    cases e.symm.trans h
  · exact hs
  · exact hs.concat rfl rfl (.inr gap)
  · exact hs
  · exact hs.concat rfl rfl (pulseOk_of_phaseMayEnd ends)
  · exact hs

/-- TX alone writes the wire record, and a reset empties it. -/
theorem act_wireOk {m : Move} {s t : State} (hs : WireOk s) (h : act m s = .next t) : WireOk t := by
  have hcfg := act_cfg h
  cases m with
  | tick dt =>
    obtain ⟨-, -, -, -, -, hwire⟩ := passTime_frame h
    exact hs.congr hcfg hwire
  | rx b => cases h; exact hs.congr hcfg (rxByte_wire b s)
  | seq => exact hs.congr hcfg (seqStep_seqSteps h).wire_kept
  | tx => exact txStep_wireOk hs h
  | reset =>
    cases h
    intro p hp
    cases hp

/-- Settles O39: a step is its move, and every move keeps `WireOk`. -/
theorem wirePhasesStayInTolerance : Obligations.WirePhasesStayInTolerance := by
  intro s t hs h
  have popped : WireOk s.popMove := WireOk.congr hs s.popMove_cfg s.popMove_wire
  exact act_wireOk popped (step_next s t h).2

/-! ## The least time of a frame (R191) -/

/-- The least duration of a bit symbol. -/
def leastSymbol (cfg : Config) : Rat := cfg.tBit * (1 - cfg.jitter)

/-- Whichever bit a symbol carries, its two phases at their shortest last as long (R111). -/
theorem shortest_high_add_low (cfg : Config) (x : Bool) :
    shortest cfg x .high + shortest cfg x .low = leastSymbol cfg := by
  simp only [shortest, nominal, leastSymbol]
  ring

/-- How many bit symbols of its frame TX has ended in `SHIFT`. -/
def Tx.symbolsDone (t : Tx) : Nat := 24 * t.pix + (23 - t.bit)

/-- The least time since TX was handed its frame, when it is in `SHIFT` at a bit `x`: the symbols before this one, the high
phase of this one where that is over, and the time of the current phase. -/
def leastSince (cfg : Config) (x : Bool) (t : Tx) : Rat :=
  t.symbolsDone * leastSymbol cfg + (match t.phase with | .high => 0 | .low => shortest cfg x .high) + t.phaseTime

theorem leastSince_high {t : Tx} (cfg : Config) (x : Bool) (h : t.phase = .high) :
    leastSince cfg x t = t.symbolsDone * leastSymbol cfg + t.phaseTime := by
  simp [leastSince, h]

theorem leastSince_low {t : Tx} (cfg : Config) (x : Bool) (h : t.phase = .low) :
    leastSince cfg x t = t.symbolsDone * leastSymbol cfg + shortest cfg x .high + t.phaseTime := by
  simp [leastSince, h]

/-- At the end of a low phase one more symbol has had its least time. -/
theorem symbolsDone_succ_le_leastSince {cfg : Config} {x : Bool} {t : Tx} (hp : t.phase = .low)
    (ends : phaseMayEnd cfg x t = true) {k : Nat} (hk : k = t.symbolsDone + 1) :
    (k : Rat) * leastSymbol cfg ≤ leastSince cfg x t := by
  obtain ⟨hmin, -⟩ := (phaseMayEnd_iff cfg x t).1 ends
  rw [hp] at hmin
  rw [hk, leastSince_low cfg x hp, Nat.cast_succ]
  linarith [shortest_high_add_low cfg x]

/-- The next symbol begins at no more than the time TX has spent. -/
theorem leastSince_nextSymbol_le {cfg : Config} {x : Bool} {t t' : Tx} (hp : t.phase = .low)
    (ends : phaseMayEnd cfg x t = true) (y : Bool) (hp' : t'.phase = .high) (htime : t'.phaseTime = 0)
    (hdone : t'.symbolsDone = t.symbolsDone + 1) : leastSince cfg y t' ≤ leastSince cfg x t := by
  rw [leastSince_high cfg y hp', htime, add_zero]
  exact symbolsDone_succ_le_leastSince hp ends hdone

/-- The end of a phase does not take the least time past the time TX has spent, and the last one of the frame comes after
the least time of `24 N` symbols. -/
theorem Tx.endPhase_leastSince {cfg : Config} {n : Nat} {x : Bool} {t : Tx} (hs : t.state = .shift) (hb : t.bit < 24)
    (hx : t.currentBit? = some x) (ends : phaseMayEnd cfg x t = true) :
    ((t.endPhase n).state = .shift ∧
      ∀ y, (t.endPhase n).currentBit? = some y → leastSince cfg y (t.endPhase n) ≤ leastSince cfg x t) ∨
    ((t.endPhase n).state = .latch ∧ (t.endPhase n).lowTime = 0 ∧
      24 * (n : Rat) * leastSymbol cfg ≤ leastSince cfg x t) := by
  rcases Tx.endPhase_cases n t with ⟨hp, e⟩ | ⟨hp, hlast, hbit, e⟩ | ⟨hp, hpos, e⟩ | ⟨hp, -, hbit, e⟩ <;> rw [e]
  · refine .inl ⟨hs, fun y hy => ?_⟩
    cases hx.symm.trans hy
    obtain ⟨hmin, -⟩ := (phaseMayEnd_iff cfg x t).1 ends
    rw [hp] at hmin
    rw [leastSince_low cfg x rfl, leastSince_high cfg x hp]
    dsimp only [Tx.symbolsDone]
    linarith
  · have least := symbolsDone_succ_le_leastSince hp ends (k := 24 * n) (by rw [Tx.symbolsDone]; omega)
    exact .inr ⟨rfl, rfl, by exact_mod_cast least⟩
  · exact .inl ⟨hs, fun y _ => leastSince_nextSymbol_le hp ends y rfl rfl (by simp only [Tx.symbolsDone]; omega)⟩
  · exact .inl ⟨hs, fun y _ => leastSince_nextSymbol_le hp ends y rfl rfl (by simp only [Tx.symbolsDone]; omega)⟩

/-! ## From a hand-over to the next (R180, R186, R191) -/

/-- A frame was handed over at `t0`: TX is still in `SHIFT`, and its place in the frame has not taken longer than the time
since then; or the frame's least time has passed, and the latch gap has begun after it. -/
def SendingSince (t0 : Rat) (s : State) : Prop :=
  (s.tx.state = .shift ∧ ∀ x, s.tx.currentBit? = some x → t0 + leastSince s.cfg x s.tx ≤ s.now) ∨
  LatchedSince (t0 + 24 * (s.cfg.n : Rat) * leastSymbol s.cfg) s

theorem sendingSince_of_frameStart {s : State} (h : FrameStart s) : SendingSince s.now s := by
  obtain ⟨hs, hpix, hbit, hphase, htime⟩ := h
  refine .inl ⟨hs, fun x _ => ?_⟩
  simp [leastSince_high s.cfg x hphase, Tx.symbolsDone, hpix, hbit, htime]

/-- Time that passes in `SHIFT` adds as much to the least time as to real time, and leaves the bit on the wire. -/
theorem passTime_shift_leastSince {dt : Rat} {s t : State} (hs : s.tx.state = .shift) (h : passTime dt s = .next t) :
    t.tx.state = .shift ∧ t.tx.currentBit? = s.tx.currentBit? ∧
      ∀ x, t.now - leastSince t.cfg x t.tx = s.now - leastSince s.cfg x s.tx := by
  have elapse (x : Bool) : leastSince s.cfg x { s.tx with phaseTime := s.tx.phaseTime + dt } =
      leastSince s.cfg x s.tx + dt := (add_assoc ..).symm
  rcases passTime_cases dt s with e | ⟨-, hn, -⟩ | ⟨_, -, -, -, -, e⟩ | ⟨-, -, e⟩
  · cases e.symm.trans h
    exact ⟨hs, rfl, fun _ => rfl⟩
  · exact absurd hs hn
  · cases e.symm.trans h
    rw [State.elapse_shift hs]
    exact ⟨hs, rfl, fun x => by dsimp only; rw [elapse, add_sub_add_right_eq_sub]⟩
  · cases e.symm.trans h

/-- TX's step in `SHIFT`: the next phase begins, or the latch gap. -/
theorem txStep_shift_sendingSince {t0 : Rat} {s t : State} (inv : TxInv s) (hs : s.tx.state = .shift)
    (least : ∀ x, s.tx.currentBit? = some x → t0 + leastSince s.cfg x s.tx ≤ s.now) (h : txStep s = .next t) :
    SendingSince t0 t := by
  obtain ⟨x, hx⟩ := inv.currentBit?_eq_some
  rw [txStep_shift hs hx] at h
  split at h <;> cases h
  next ends =>
    have sofar := least x hx
    rcases Tx.endPhase_leastSince (n := s.cfg.n) hs inv.bit hx ends with ⟨hs', least'⟩ | ⟨hs', hlow, frame⟩
    · refine .inl ⟨hs', fun y hy => ?_⟩
      have nextPhase := least' y hy
      rw [State.endPhase_cfg, State.endPhase_tx, State.endPhase_now]
      linarith
    · refine .inr (.inl ⟨hs', ?_⟩)
      rw [State.endPhase_cfg, State.endPhase_tx, State.endPhase_now, hlow]
      linarith
  next => exact .inl ⟨hs, least⟩

theorem act_sendingSince {t0 : Rat} {m : Move} {s t : State} (inv : TxInv s) (hm : m ≠ .reset)
    (sending : SendingSince t0 s) (h : act m s = .next t) : SendingSince t0 t := by
  rcases sending with ⟨hs, least⟩ | latched
  · cases m with
    | tick dt =>
      obtain ⟨hs', hbit, same⟩ := passTime_shift_leastSince hs h
      exact .inl ⟨hs', fun x hx => by linarith [same x, least x (hbit ▸ hx)]⟩
    | rx b =>
      cases h
      obtain ⟨hcfg, -, htx, hnow⟩ := rxByte_frame b s
      exact .inl (by rw [htx, hcfg, hnow]; exact ⟨hs, least⟩)
    | seq =>
      have steps := seqStep_seqSteps h
      obtain ⟨hcfg, -, hnow⟩ := steps.frame
      rcases steps.tx_cases with htx | ⟨idle, -⟩
      · exact .inl (by rw [htx, hcfg, hnow]; exact ⟨hs, least⟩)
      · cases hs.symm.trans idle
    | tx => exact txStep_shift_sendingSince inv hs least h
    | reset => exact absurd rfl hm
  · exact .inr (by rw [act_cfg h]; exact act_latchedSince hm latched h)

/-- Settles O38: `SendingSince` holds at the hand-over and every move but a reset keeps it, and an idle TX is past the frame
and its latch gap. -/
theorem handOversAreSpaced : Obligations.HandOversAreSpaced := by
  intro ms s t inv start hr h idle
  obtain ⟨-, hcfg, sending⟩ := runMoves_keeps (P := fun u => Inv u ∧ u.cfg = s.cfg ∧ SendingSince s.now u)
    (fun m u v hm ⟨hu, hcfg, sending⟩ huv =>
      ⟨act_inv hu huv, (act_cfg huv).trans hcfg, act_sendingSince hu.tx hm sending huv⟩)
    hr ⟨inv, rfl, sendingSince_of_frameStart start⟩ h
  rcases sending with ⟨hs, -⟩ | ⟨hlatch, -⟩ | passed
  · cases hs.symm.trans idle
  · cases hlatch.symm.trans idle
  · rwa [hcfg, leastSymbol, ← mul_assoc] at passed

end Sys2Proof.Machine
end

section
/-! PROOFS for spec/43_animation.md (R211 to R230): what the patterns unroll to, their sizes and the frames they show, the
hue wheel, DELAY, SEQ's move around `exec`, and input while SEQ is busy. Every step of a mirrored pattern or of a sectioned
chase has one form (`lightStep`): what is proved of that form is said of five patterns at once. -/

namespace Sys2Proof

/-! ## The form of a pattern's step -/

/-- A SET of every position of `ps`, in list order, to its colour under `w`. -/
def setAll (ps : List Int) (w : Int → Pixel) : List Instr := ps.map fun p => .set p (w p)

/-- The positions `ps` lit in `px` and rendered, the DELAYs `waits`, the same positions cleared, and the RENDER that follows
where `clear` asks for one (R214 to R220). -/
def lightStep (ps : List Int) (px : Pixel) (waits : List Rat) (clear : Bool) : List Instr :=
  setAll ps (fun _ => px) ++ .render :: waits.map .delay ++ setAll ps (fun _ => Pixel.black) ++
    if clear then [.render] else []

/-- The positions step `i` of FILL_BOUNCE and of CHASE_A lights (R214, R216); CHASE_B lights their mirror images (R217). -/
def Config.pair (cfg : Config) (i : Nat) : List Int := [cfg.b - 1 - i, cfg.b + i]

/-- The positions of section `k` (R219). -/
def Config.sectionPositions (cfg : Config) (k : Nat) : List Int :=
  (List.range (cfg.sectionLength k)).map fun q => ((cfg.sectionStart k + q : Nat) : Int)

/-- The positions of the strip. -/
def Config.strip (cfg : Config) : List Int := (List.range cfg.n).map Nat.cast

theorem Config.bounceStep_eq_lightStep (cfg : Config) (px : Pixel) (i : Nat) :
    cfg.bounceStep px i = lightStep (cfg.pair i) px [] true := rfl

theorem Config.chaseAStep_eq_lightStep (cfg : Config) (px : Pixel) (i : Nat) :
    cfg.chaseAStep px i = lightStep (cfg.pair i) px [cfg.tChase] cfg.clearRender := rfl

theorem lightStep_mirrored (cfg : Config) (ps : List Int) (px : Pixel) (waits : List Rat) (clear : Bool) :
    (lightStep ps px waits clear).map (Instr.mirrored cfg) = lightStep (ps.map cfg.mirror) px waits clear := by
  cases clear <;> simp [lightStep, setAll, Function.comp_def, Instr.mirrored]

theorem Config.chaseBStep_eq_lightStep (cfg : Config) (px : Pixel) (i : Nat) :
    cfg.chaseBStep px i = lightStep ((cfg.pair i).map cfg.mirror) px [cfg.tChase] cfg.clearRender := by
  rw [Config.chaseBStep_eq, Config.chaseAStep_eq_lightStep, lightStep_mirrored]

theorem Config.sectionStep_eq_lightStep (cfg : Config) (px : Pixel) (k : Nat) :
    cfg.sectionStep px k = lightStep (cfg.sectionPositions k) px [cfg.tSection] cfg.clearRender := by
  simp [Config.sectionStep, Config.sectionSets, Config.clearOps, lightStep, setAll, Config.sectionPositions,
    Function.comp_def]

theorem Config.rainbowStep_eq (cfg : Config) (j : Nat) : cfg.rainbowStep j =
    setAll cfg.strip (fun q => wheel (cfg.rainbowIndex q.toNat j)) ++ [.render, .delay cfg.tRainbow] := by
  simp [Config.rainbowStep, setAll, Config.strip]

@[simp] theorem setAll_length (ps : List Int) (w : Int → Pixel) : (setAll ps w).length = ps.length := by
  simp [setAll]

theorem lightStep_length (ps : List Int) (px : Pixel) (waits : List Rat) (clear : Bool) :
    (lightStep ps px waits clear).length = 2 * ps.length + 1 + waits.length + if clear then 1 else 0 := by
  cases clear <;> simp [lightStep] <;> omega

theorem delay_mem_lightStep {t : Rat} {ps : List Int} {px : Pixel} {waits : List Rat} {clear : Bool}
    (h : Instr.delay t ∈ lightStep ps px waits clear) : t ∈ waits := by
  cases clear <;> simpa [lightStep, setAll] using h

/-! ## Where a step stands in its program -/

/-- The block of the entry at `k` starts where the blocks before it end. -/
theorem flatMap_block {α β : Type} (f : α → List β) {l : List α} {k : Nat} {a : α} (h : l[k]? = some a) :
    ((l.flatMap f).drop ((l.map fun x => (f x).length).take k).sum).take (f a).length = f a := by
  induction l generalizing k with
  | nil => cases h
  | cons x xs ih =>
    cases k with
    | zero => cases h; simp
    | succ k => simpa [List.drop_length_add_append] using ih h

theorem flatMap_range_length {β : Type} {f : Nat → List β} {size : Nat} (h : ∀ i, (f i).length = size) (n : Nat) :
    ((List.range n).flatMap f).length = size * n := by
  simp [List.length_flatMap, h, mul_comm]

theorem flatMap_range_block {β : Type} {f : Nat → List β} {size : Nat} (h : ∀ i, (f i).length = size) {n i : Nat}
    (hi : i < n) : (((List.range n).flatMap f).drop (size * i)).take size = f i := by
  have block := flatMap_block f (List.getElem?_range hi)
  simpa [h, List.take_replicate, hi.le, mul_comm] using block

theorem sum_map_double_add (c : Nat) (l : List Nat) : (l.map fun x => 2 * x + c).sum = 2 * l.sum + c * l.length := by
  rw [List.sum_map_add, List.sum_map_mul_left, List.map_id', List.map_const', List.sum_replicate, smul_eq_mul, mul_comm c]

/-- The section lengths are those of the sections in order (R219). -/
theorem Config.map_sectionLength (cfg : Config) :
    (List.range cfg.sections.length).map cfg.sectionLength = cfg.sections := by
  refine List.ext_getElem (by simp) fun k _ hk => ?_
  simp [Config.sectionLength, hk]

theorem Config.sectionStart_succ (cfg : Config) (k : Nat) :
    cfg.sectionStart (k + 1) = cfg.sectionStart k + cfg.sectionLength k := by
  cases h : cfg.sections[k]? <;> simp [Config.sectionStart, Config.sectionLength, List.take_add_one, h]

theorem Config.sectionStart_le (cfg : Config) (k : Nat) : cfg.sectionStart k ≤ cfg.sections.sum :=
  Nat.le.intro (List.sum_take_add_sum_drop _ k)

theorem Config.mem_sectionPositions {cfg : Config} {k : Nat} {q : Int} : q ∈ cfg.sectionPositions k ↔
    (cfg.sectionStart k : Int) ≤ q ∧ q < (cfg.sectionStart (k + 1) : Int) := by
  rw [Config.sectionStart_succ, Config.sectionPositions, List.mem_map]
  refine ⟨?_, fun ⟨low, high⟩ => ⟨(q - cfg.sectionStart k).toNat, ?_, ?_⟩⟩
  · rintro ⟨j, hj, rfl⟩
    rw [List.mem_range] at hj
    omega
  · rw [List.mem_range]
    omega
  · omega

theorem Config.sectionLength_of_getElem? {cfg : Config} {k l : Nat} (h : cfg.sections[k]? = some l) :
    cfg.sectionLength k = l := by
  simp [Config.sectionLength, h]

theorem Config.sectionStep_length (cfg : Config) (px : Pixel) (k : Nat) :
    (cfg.sectionStep px k).length = 2 * cfg.sectionLength k + (2 + if cfg.clearRender then 1 else 0) := by
  rw [Config.sectionStep_eq_lightStep, lightStep_length]
  simp [Config.sectionPositions]
  omega

theorem Config.map_sectionStep_length (cfg : Config) (px : Pixel) :
    (List.range cfg.sections.length).map (fun k => (cfg.sectionStep px k).length) =
      cfg.sections.map fun l => 2 * l + (2 + if cfg.clearRender then 1 else 0) := by
  conv_rhs => rw [← cfg.map_sectionLength, List.map_map]
  simp [Config.sectionStep_length, Function.comp_def]

theorem Config.sectionFwdOps_length (cfg : Config) (px : Pixel) : (cfg.sectionFwdOps px).length =
    2 * cfg.sections.sum + (2 + if cfg.clearRender then 1 else 0) * cfg.sections.length := by
  rw [Config.sectionFwdOps, List.length_flatMap, Config.map_sectionStep_length, sum_map_double_add]

/-- SECTION_REV has the steps of SECTION_FWD in another order (R221). -/
theorem Config.sectionRevOps_perm (cfg : Config) (px : Pixel) : (cfg.sectionRevOps px).Perm (cfg.sectionFwdOps px) :=
  List.Perm.flatMap_right _ (List.reverse_perm _)

theorem Config.sectionFwdOps_block (cfg : Config) (px : Pixel) {k : Nat} (hk : k < cfg.sections.length) :
    ((cfg.sectionFwdOps px).drop
        (2 * (cfg.sections.take k).sum + (2 + if cfg.clearRender then 1 else 0) * k)).take (cfg.sectionStep px k).length =
      cfg.sectionStep px k := by
  have block := flatMap_block (cfg.sectionStep px) (List.getElem?_range hk)
  rwa [Config.map_sectionStep_length, ← List.map_take, sum_map_double_add, List.length_take_of_le hk.le] at block

theorem Config.sectionRevOps_block (cfg : Config) (px : Pixel) {k : Nat} (hk : k < cfg.sections.length) :
    ((cfg.sectionRevOps px).drop (2 * (cfg.sections.drop (k + 1)).sum +
        (2 + if cfg.clearRender then 1 else 0) * (cfg.sections.length - (k + 1)))).take (cfg.sectionStep px k).length =
      cfg.sectionStep px k := by
  have place : (List.range cfg.sections.length).reverse[cfg.sections.length - (k + 1)]? = some k := by
    have mirrored : cfg.sections.length - 1 - (cfg.sections.length - (k + 1)) = k := by omega
    rw [List.getElem?_reverse (by rw [List.length_range]; omega), List.length_range, mirrored, List.getElem?_range hk]
  have before : cfg.sections.length - (cfg.sections.length - (k + 1)) = k + 1 := by omega
  have block := flatMap_block (cfg.sectionStep px) place
  rwa [List.map_reverse, Config.map_sectionStep_length, List.take_reverse, List.sum_reverse, List.length_map, before,
    ← List.map_drop, sum_map_double_add, List.length_drop] at block

/-- Settles O44: each program is the steps one after another, so a step stands where those before it end. -/
theorem pairPatternsUnroll : Obligations.PairPatternsUnroll := by
  rintro cfg c px x rfl rfl
  have seven : (6 + if cfg.clearRender then 1 else 0) = if cfg.clearRender then 7 else 6 := by split <;> rfl
  have chaseA (i : Nat) : (cfg.chaseAStep (cfg.colour c) i).length = if cfg.clearRender then 7 else 6 := by
    rw [← seven, Config.chaseAStep_eq_lightStep, lightStep_length]; rfl
  have chaseB (i : Nat) : (cfg.chaseBStep (cfg.colour c) i).length = if cfg.clearRender then 7 else 6 := by
    rw [Config.chaseBStep_eq, List.length_map, chaseA]
  have bounce (i : Nat) : (cfg.bounceStep (cfg.colour c) i).length = 6 := rfl
  have rainbow (j : Nat) : (cfg.rainbowStep j).length = cfg.n + 2 := by simp [Config.rainbowStep]
  refine ⟨fun i hi => ?_, fun k l sets hl hsets => ?_, ?_, fun j hj => flatMap_range_block rainbow hj⟩
  · have hi' : i < cfg.pairSteps := by rw [Config.pairSteps]; omega
    have steps : (cfg.pairSteps : Int) = cfg.n - cfg.b := by rw [Config.pairSteps]; omega
    refine ⟨?_, ?_, ?_, flatMap_range_block bounce hi', flatMap_range_block chaseA hi', flatMap_range_block chaseB hi'⟩
    · rw [← steps, Config.expand, Config.fillBounceOps, flatMap_range_length bounce]
      simp
    · rw [← steps, Config.expand, Config.chaseAOps, flatMap_range_length chaseA]
      split <;> simp
    · rw [← steps, Config.expand, Config.chaseBOps, flatMap_range_length chaseB]
      split <;> simp
  · obtain ⟨hk, -⟩ := List.getElem?_eq_some_iff.1 hl
    have step : cfg.sectionStep (cfg.colour c) k = sets (cfg.colour c) ++ [.render, .delay cfg.tSection] ++
        sets Pixel.black ++ if cfg.clearRender then [.render] else [] := by
      simp [Config.sectionStep, Config.sectionSets, Config.sectionLength_of_getElem? hl, Config.sectionStart,
        Config.clearOps, hsets]
    have size : 2 * l + 2 + (if cfg.clearRender then 1 else 0) = (cfg.sectionStep (cfg.colour c) k).length := by
      rw [Config.sectionStep_length, Config.sectionLength_of_getElem? hl, add_assoc]
    rw [size]
    exact ⟨cfg.sectionFwdOps_length _, (cfg.sectionRevOps_perm _).length_eq.trans (cfg.sectionFwdOps_length _),
      (cfg.sectionFwdOps_block _ hk).trans step, (cfg.sectionRevOps_block _ hk).trans step⟩
  · exact (flatMap_range_length rainbow 255).trans (Nat.mul_comm _ _)

end Sys2Proof

namespace Sys2Proof.Machine

/-! ## The sizes of the patterns (R229) -/

theorem sizes_append (cfg : Config) (ops ops' : List Instr) :
    sizes cfg (ops ++ ops') = sizes cfg ops + sizes cfg ops' := by
  simp [sizes]

theorem sizes_perm (cfg : Config) {ops ops' : List Instr} (h : ops.Perm ops') : sizes cfg ops = sizes cfg ops' := by
  simp [sizes, h.countP_eq]

theorem sizes_setAll (cfg : Config) (ps : List Int) (w : Int → Pixel) :
    sizes cfg (setAll ps w) = (ps.length, 0, 0, ps.countP fun p => !cfg.inRange p) := by
  induction ps with
  | nil => rfl
  | cons p ps ih =>
    rw [setAll, List.map_cons, ← List.singleton_append, sizes_append, ← setAll, ih]
    cases h : cfg.inRange p <;> simp [sizes, Instr.isSet, Instr.isDelay, Instr.overruns, h, add_comm]

theorem sizes_lightStep (cfg : Config) (ps : List Int) (px : Pixel) (waits : List Rat) (clear : Bool) :
    sizes cfg (lightStep ps px waits clear) = (2 * ps.length, 1 + (if clear then 1 else 0), waits.length,
      2 * ps.countP fun p => !cfg.inRange p) := by
  have waiting : sizes cfg (.render :: waits.map .delay) = (0, 1, waits.length, 0) := by
    simp [sizes, List.countP_map, Function.comp_def, Instr.isSet, Instr.isDelay, Instr.overruns]
  have clearing : sizes cfg (if clear then [.render] else []) = (0, if clear then 1 else 0, 0, 0) := by
    cases clear <;> rfl
  rw [lightStep, sizes_append, sizes_append, sizes_append, sizes_setAll, sizes_setAll, waiting, clearing]
  simp [two_mul]

/-- The sizes of a program are the sums of its steps' sizes. -/
theorem sizes_flatMap {cfg : Config} {step : Nat → List Instr} {sets frames delays overruns : Nat → Nat} {l : List Nat}
    (h : ∀ i ∈ l, sizes cfg (step i) = (sets i, frames i, delays i, overruns i)) :
    sizes cfg (l.flatMap step) = ((l.map sets).sum, (l.map frames).sum, (l.map delays).sum, (l.map overruns).sum) := by
  induction l with
  | nil => rfl
  | cons i l ih =>
    obtain ⟨hi, hl⟩ := List.forall_mem_cons.1 h
    simp [sizes_append, hi, ih hl]

theorem countP_overruns_eq_zero {cfg : Config} {ps : List Int} (h : ∀ p ∈ ps, 0 ≤ p ∧ p < cfg.n) :
    (ps.countP fun p => !cfg.inRange p) = 0 := by
  refine List.countP_eq_zero.2 fun p hp => ?_
  have within : cfg.inRange p = true := (cfg.inRange_iff p).2 (by have := h p hp; omega)
  simp [within]

/-- Step `i` of a mirrored pattern overruns when its left position does, from `i = B` on (R229). -/
theorem countP_pair_overruns {cfg : Config} (hb : 0 ≤ cfg.b) (hn : cfg.b ≤ cfg.n) {i : Nat} (hi : i < cfg.pairSteps) :
    ((cfg.pair i).countP fun p => !cfg.inRange p) = if (i : Int) < cfg.b then 0 else 1 := by
  rw [Config.pairSteps] at hi
  have right : cfg.inRange (cfg.b + i) = true := (cfg.inRange_iff _).2 (by omega)
  have left : cfg.inRange (cfg.b - 1 - i) = decide ((i : Int) < cfg.b) := by
    rw [Bool.eq_iff_iff, Config.inRange_iff, decide_eq_true_iff]
    omega
  by_cases h : (i : Int) < cfg.b <;> simp [Config.pair, left, right, h]

theorem countP_pair_mirror_overruns (cfg : Config) (i : Nat) :
    (((cfg.pair i).map cfg.mirror).countP fun p => !cfg.inRange p) = (cfg.pair i).countP fun p => !cfg.inRange p := by
  simp [List.countP_map, Function.comp_def, Config.inRange_mirror]

theorem sum_overruns {b : Int} (hb : 0 ≤ b) (k : Nat) :
    ((List.range k).map fun i : Nat => 2 * if (i : Int) < b then 0 else 1).sum = 2 * ((k : Int) - b).toNat := by
  induction k with
  | zero => simp; omega
  | succ k ih =>
    rw [List.range_succ, List.map_append, List.sum_append, ih]
    by_cases h : (k : Int) < b <;> simp [h] <;> omega

/-- The sizes of a pattern of `K` steps that light two positions each and overrun as step `i` of FILL_BOUNCE does. -/
theorem sizes_pairSteps {cfg : Config} (hb : 0 ≤ cfg.b) (hn : cfg.b ≤ cfg.n) (px : Pixel) (waits : List Rat)
    (clear : Bool) {ps : Nat → List Int} (length : ∀ i, (ps i).length = 2)
    (overruns : ∀ i, ((ps i).countP fun p => !cfg.inRange p) = (cfg.pair i).countP fun p => !cfg.inRange p) :
    sizes cfg ((List.range cfg.pairSteps).flatMap fun i => lightStep (ps i) px waits clear) =
      (4 * cfg.pairSteps, cfg.pairSteps * (1 + if clear then 1 else 0), cfg.pairSteps * waits.length,
        2 * ((cfg.n : Int) - 2 * cfg.b).toNat) := by
  have steps : ∀ i ∈ List.range cfg.pairSteps, sizes cfg (lightStep (ps i) px waits clear) =
      (4, 1 + (if clear then 1 else 0), waits.length, 2 * if (i : Int) < cfg.b then 0 else 1) := fun i hi => by
    rw [sizes_lightStep, length, overruns, countP_pair_overruns hb hn (List.mem_range.1 hi)]
  have left : (cfg.pairSteps : Int) - cfg.b = cfg.n - 2 * cfg.b := by rw [Config.pairSteps]; omega
  rw [sizes_flatMap steps, sum_overruns hb, left]
  simp [mul_comm]

theorem countP_section_overruns {cfg : Config} (hs : cfg.sections.sum ≤ cfg.n) (k : Nat) :
    ((cfg.sectionPositions k).countP fun p => !cfg.inRange p) = 0 := by
  refine countP_overruns_eq_zero fun p hp => ?_
  obtain ⟨low, high⟩ := Config.mem_sectionPositions.1 hp
  have total := cfg.sectionStart_le (k + 1)
  omega

theorem sizes_sectionFwdOps {cfg : Config} (hs : cfg.sections.sum ≤ cfg.n) (px : Pixel) :
    sizes cfg (cfg.sectionFwdOps px) = (2 * cfg.sections.sum,
      cfg.sections.length * (1 + if cfg.clearRender then 1 else 0), cfg.sections.length, 0) := by
  have steps : ∀ k ∈ List.range cfg.sections.length, sizes cfg (cfg.sectionStep px k) =
      (2 * cfg.sectionLength k, 1 + (if cfg.clearRender then 1 else 0), 1, 0) := fun k _ => by
    rw [Config.sectionStep_eq_lightStep, sizes_lightStep, countP_section_overruns hs]
    simp [Config.sectionPositions]
  rw [Config.sectionFwdOps, sizes_flatMap steps, List.sum_map_mul_left, Config.map_sectionLength]
  simp

theorem sizes_rainbowOps (cfg : Config) : sizes cfg cfg.rainbowOps = (255 * cfg.n, 255, 255, 0) := by
  have overruns : (cfg.strip.countP fun p => !cfg.inRange p) = 0 := by
    refine countP_overruns_eq_zero fun p hp => ?_
    obtain ⟨k, hk, rfl⟩ := List.mem_map.1 hp
    rw [List.mem_range] at hk
    omega
  have steps : ∀ j ∈ List.range 255, sizes cfg (cfg.rainbowStep j) = (cfg.n, 1, 1, 0) := fun j _ => by
    rw [Config.rainbowStep_eq, sizes_append, sizes_setAll, overruns]
    simp [Config.strip, sizes, Instr.isSet, Instr.isDelay, Instr.overruns]
  rw [Config.rainbowOps, sizes_flatMap steps]
  simp only [List.map_const', List.sum_replicate, List.length_range, smul_eq_mul, mul_one, mul_zero]

/-- Settles O45: the sizes are the sums over the steps. Mirroring moves no position out of range or into it, and SECTION_REV
has the steps of SECTION_FWD. -/
theorem patternSizes : Obligations.PatternSizes := by
  rintro cfg c k m l x hv hk rfl rfl rfl
  obtain ⟨-, hb, hn, hs, -⟩ := cfg.shapeValid_iff.1 (cfg.valid_iff.1 hv).1
  have steps : k = cfg.pairSteps := by rw [Config.pairSteps]; omega
  have pairs := sizes_pairSteps hb hn (cfg.colour c) (ps := cfg.pair) (length := fun _ => rfl) (overruns := fun _ => rfl)
  subst steps
  refine ⟨?_, ?_, ?_, sizes_sectionFwdOps hs _,
    (sizes_perm cfg (cfg.sectionRevOps_perm _)).trans (sizes_sectionFwdOps hs _), sizes_rainbowOps cfg⟩
  · exact (pairs [] true).trans (by simp [mul_comm])
  · exact (pairs [cfg.tChase] cfg.clearRender).trans (by simp)
  · rw [Config.expand, Config.chaseBOps, funext (cfg.chaseBStep_eq_lightStep _),
      sizes_pairSteps hb hn (cfg.colour c) [cfg.tChase] cfg.clearRender (length := fun _ => rfl)
        (overruns := countP_pair_mirror_overruns cfg)]
    simp

end Sys2Proof.Machine

namespace Sys2Proof.Machine

/-! ## What a step shows (R214 to R224) -/

/-- The framebuffer whose entry `k` has the colour `w k`. -/
def paint (cfg : Config) (w : Int → Pixel) : Memory := (List.range cfg.n).map fun k : Nat => w k

/-- The frame SCALE makes of it (R162). -/
def paintFrame (cfg : Config) (w : Int → Pixel) : List WireWord :=
  (List.range cfg.n).map fun k : Nat => pack (w k) (factor cfg)

/-- A play has come to the framebuffer painted `w`, the frames `fs` emitted. -/
structure Shows (cfg : Config) (w : Int → Pixel) (fs : List (List WireWord)) (v : Played) : Prop where
  fb : v.fb = paint cfg w
  frames : framesIn v.events = fs

theorem paint_length (cfg : Config) (w : Int → Pixel) : (paint cfg w).length = cfg.n := by simp [paint]

theorem frameOf_paint (cfg : Config) (w : Int → Pixel) : frameOf cfg (paint cfg w) = paintFrame cfg w := by
  rw [frameOf_eq_map cfg _ (paint_length cfg w), paint, List.map_map]
  rfl

/-- A framebuffer depends on the colours of [0, N-1] only. -/
theorem paint_congr {cfg : Config} {w u : Int → Pixel} (h : ∀ k : Nat, k < cfg.n → w k = u k) :
    paint cfg w = paint cfg u :=
  List.map_congr_left fun k hk => h k (List.mem_range.1 hk)

theorem paint_black (cfg : Config) : paint cfg (fun _ => Pixel.black) = List.replicate cfg.n Pixel.black := by
  simp [paint]

/-- Every framebuffer of `N` pixels is painted in its own colours. -/
theorem exists_paint {cfg : Config} {fb : Memory} (h : Memory.wf cfg.n fb = true) : ∃ w, fb = paint cfg w := by
  rw [Memory.wf_iff] at h
  refine ⟨fun q => fb.getD q.toNat Pixel.black, List.ext_getElem (by rw [paint_length, h]) fun k hk _ => ?_⟩
  simp [paint, hk]

theorem pack_black (f : Rat) : pack Pixel.black f = 0 := by
  have zero : scaleChannel 0 f = 0 := by simp [scaleChannel]
  rw [pack, Pixel.black, zero]
  rfl

/-- The statements' ranges of integer positions are those of the naturals, each read as an integer. -/
theorem bind_pure_cast (l : List Nat) : (do let k ← l; pure (k : Int)) = l.map Nat.cast :=
  bind_pure_comp _ _

theorem litFrame_eq_map (cfg : Config) (px : Pixel) (lit : Int → Bool) :
    litFrame cfg px lit = (List.range cfg.n).map fun k : Nat => if lit k then pack px (factor cfg) else 0 := by
  rw [litFrame, bind_pure_cast, List.map_map]
  rfl

theorem paintFrame_lit (cfg : Config) (px : Pixel) (lit : Int → Bool) :
    paintFrame cfg (fun q => if lit q then px else Pixel.black) = litFrame cfg px lit := by
  rw [litFrame_eq_map]
  refine List.map_congr_left fun k _ => ?_
  rw [apply_ite (pack · (factor cfg)), pack_black]

theorem paintFrame_black (cfg : Config) : paintFrame cfg (fun _ => Pixel.black) = darkFrame cfg := by
  simp [paintFrame, darkFrame, pack_black]

namespace Shows

variable {cfg : Config} {w : Int → Pixel} {fs : List (List WireWord)} {v : Played}

theorem congr (h : Shows cfg w fs v) {u : Int → Pixel} (hu : ∀ k : Nat, k < cfg.n → w k = u k) : Shows cfg u fs v :=
  ⟨h.fb.trans (paint_congr hu), h.frames⟩

/-- A SET paints its position, which is no entry of the framebuffer where it is out of range (R140). -/
theorem set (h : Shows cfg w fs v) (p : Int) (px : Pixel) :
    Shows cfg (Function.update w p px) fs (playOp cfg v (.set p px)) := by
  cases hp : cfg.inRange p with
  | true =>
    obtain ⟨hp0, hpn⟩ := (cfg.inRange_iff p).1 hp
    refine ⟨List.ext_getElem (by simp [playOp, hp, h.fb, paint]) fun k hk _ => ?_, by simp [playOp, hp, h.frames]⟩
    have same : p.toNat = k ↔ (k : Int) = p := by omega
    simp [playOp, hp, h.fb, paint, List.getElem_set, Function.update_apply, same]
  | false =>
    refine ⟨?_, by simp [playOp, hp, h.frames]⟩
    have other (k : Nat) (hk : k < cfg.n) : (k : Int) ≠ p := by
      rintro rfl
      exact Bool.false_ne_true (hp.symm.trans ((cfg.inRange_iff k).2 (by omega)))
    simpa [playOp, hp, h.fb] using paint_congr fun k hk => by rw [Function.update_of_ne (other k hk)]

theorem render (h : Shows cfg w fs v) : Shows cfg w (fs ++ [paintFrame cfg w]) (playOp cfg v .render) :=
  ⟨h.fb, by simp [playOp, h.fb, h.frames, frameOf_paint]⟩

theorem setAll (h : Shows cfg w fs v) (ps : List Int) (u : Int → Pixel) :
    Shows cfg (fun q => if q ∈ ps then u q else w q) fs (play cfg (setAll ps u) v) := by
  induction ps generalizing w v with
  | nil => exact h.congr fun _ _ => by simp
  | cons p ps ih =>
    refine (ih (h.set p (u p))).congr fun k _ => ?_
    by_cases hk : (k : Int) = p <;> simp [hk]

theorem delays (h : Shows cfg w fs v) (waits : List Rat) : Shows cfg w fs (play cfg (waits.map .delay) v) := by
  induction waits generalizing v with
  | nil => exact h
  | cons t waits ih => exact ih ⟨h.fb, h.frames⟩

end Shows

/-- The frames of a step that lights `ps`: its positions lit, then the all-zero frame where it renders the cleared strip. -/
def stepFrames (cfg : Config) (px : Pixel) (clear : Bool) (ps : List Int) : List (List WireWord) :=
  litFrame cfg px (fun q => decide (q ∈ ps)) :: if clear then [darkFrame cfg] else []

namespace Shows

variable {cfg : Config} {fs : List (List WireWord)} {v : Played}

/-- A step lights its positions on a Black strip and clears exactly those (R214 to R220). -/
theorem lightStep (h : Shows cfg (fun _ => Pixel.black) fs v) (ps : List Int) (px : Pixel) (waits : List Rat)
    (clear : Bool) :
    Shows cfg (fun _ => Pixel.black) (fs ++ stepFrames cfg px clear ps) (play cfg (lightStep ps px waits clear) v) := by
  have lit := ((h.setAll ps fun _ => px).render.delays waits).setAll ps fun _ => Pixel.black
  have frame := paintFrame_lit cfg px fun q => decide (q ∈ ps)
  simp only [decide_eq_true_eq] at frame
  rw [frame] at lit
  have cleared := lit.congr (u := fun _ => Pixel.black) fun k _ => by split <;> rfl
  rw [Sys2Proof.lightStep, play_append, play_append, play_append, play_cons]
  cases clear with
  | true => simpa [stepFrames, paintFrame_black] using cleared.render
  | false => simpa [stepFrames] using cleared

theorem lightSteps (h : Shows cfg (fun _ => Pixel.black) fs v) (l : List Nat) (ps : Nat → List Int) (px : Pixel)
    (waits : List Rat) (clear : Bool) :
    Shows cfg (fun _ => Pixel.black) (fs ++ l.flatMap fun i => stepFrames cfg px clear (ps i))
      (play cfg (l.flatMap fun i => Sys2Proof.lightStep (ps i) px waits clear) v) := by
  induction l generalizing fs v with
  | nil => simpa using h
  | cons i l ih =>
    rw [List.flatMap_cons, List.flatMap_cons, ← List.append_assoc, play_append]
    exact ih (h.lightStep (ps i) px waits clear)

end Shows

/-- A program of lighting steps, from a Black strip, shows the frames of its steps in order and ends all Black. -/
theorem playFromBlack_lightSteps (cfg : Config) (l : List Nat) (ps : Nat → List Int) (px : Pixel) (waits : List Rat)
    (clear : Bool) :
    Shows cfg (fun _ => Pixel.black) (l.flatMap fun i => stepFrames cfg px clear (ps i))
      (playFromBlack cfg (l.flatMap fun i => Sys2Proof.lightStep (ps i) px waits clear)) := by
  have black : Shows cfg (fun _ => Pixel.black) [] ⟨List.replicate cfg.n Pixel.black, []⟩ :=
    ⟨(paint_black cfg).symm, rfl⟩
  exact black.lightSteps l ps px waits clear

section
variable (cfg : Config) (px : Pixel)

theorem fillBounceOps_shows : Shows cfg (fun _ => Pixel.black)
    ((List.range cfg.pairSteps).flatMap fun i => stepFrames cfg px true (cfg.pair i))
    (playFromBlack cfg (cfg.fillBounceOps px)) := by
  rw [Config.fillBounceOps, funext (cfg.bounceStep_eq_lightStep px)]
  exact playFromBlack_lightSteps ..

theorem chaseAOps_shows : Shows cfg (fun _ => Pixel.black)
    ((List.range cfg.pairSteps).flatMap fun i => stepFrames cfg px cfg.clearRender (cfg.pair i))
    (playFromBlack cfg (cfg.chaseAOps px)) := by
  rw [Config.chaseAOps, funext (cfg.chaseAStep_eq_lightStep px)]
  exact playFromBlack_lightSteps ..

theorem chaseBOps_shows : Shows cfg (fun _ => Pixel.black)
    ((List.range cfg.pairSteps).flatMap fun i => stepFrames cfg px cfg.clearRender ((cfg.pair i).map cfg.mirror))
    (playFromBlack cfg (cfg.chaseBOps px)) := by
  rw [Config.chaseBOps, funext (cfg.chaseBStep_eq_lightStep px)]
  exact playFromBlack_lightSteps ..

/-- The sections of `l` in turn: SECTION_FWD and SECTION_REV differ in the order alone (R220, R221). -/
theorem sectionSteps_shows (l : List Nat) : Shows cfg (fun _ => Pixel.black)
    (l.flatMap fun k => stepFrames cfg px cfg.clearRender (cfg.sectionPositions k))
    (playFromBlack cfg (l.flatMap (cfg.sectionStep px))) := by
  rw [funext (cfg.sectionStep_eq_lightStep px)]
  exact playFromBlack_lightSteps ..

end

/-- Settles O52: every step of these patterns clears what it lit. -/
theorem patternsLeaveBlack : Obligations.PatternsLeaveBlack := by
  intro cfg p _ hp
  rw [← paint_black]
  cases p with
  | fillBounce c => exact (fillBounceOps_shows cfg _).fb
  | chaseA c => exact (chaseAOps_shows cfg _).fb
  | chaseB c => exact (chaseBOps_shows cfg _).fb
  | sectionFwd c => exact (sectionSteps_shows cfg _ _).fb
  | sectionRev c => exact (sectionSteps_shows cfg _ _).fb
  | rainbow => exact absurd rfl hp

/-- The frames of a step are told by which positions it lights. -/
theorem stepFrames_eq {cfg : Config} {ps : List Int} {lit : Int → Bool} (h : ∀ q, q ∈ ps ↔ lit q = true) (px : Pixel)
    (clear : Bool) : stepFrames cfg px clear ps = litFrame cfg px lit :: if clear then [darkFrame cfg] else [] := by
  have same : (fun q => decide (q ∈ ps)) = lit := funext fun q => by rw [Bool.eq_iff_iff, decide_eq_true_iff, h]
  rw [stepFrames, same]

/-- Settles O46: the positions of step `i` are the two of the pattern's pseudocode. -/
theorem pairPatternFrames : Obligations.PairPatternFrames := by
  intro cfg c _ _
  have pair (i : Nat) (q : Int) : q ∈ cfg.pair i ↔ (decide (q = cfg.b - 1 - i) || decide (q = cfg.b + i)) = true := by
    simp [Config.pair]
  have mirrored (i : Nat) (q : Int) : q ∈ (cfg.pair i).map cfg.mirror ↔
      (decide (q = cfg.n - cfg.b + i) || decide (q = cfg.n - 1 - cfg.b - i)) = true := by
    simp [Config.pair, Config.mirror]
    omega
  refine ⟨(fillBounceOps_shows cfg _).frames.trans ?_, (chaseAOps_shows cfg _).frames.trans ?_,
    (chaseBOps_shows cfg _).frames.trans ?_⟩
  · simp only [stepFrames_eq (pair _), if_true, bind_pure_cast, List.flatMap_map]
    rfl
  · simp only [stepFrames_eq (pair _), bind_pure_cast, List.flatMap_map]
    rfl
  · simp only [stepFrames_eq (mirrored _), bind_pure_cast, List.flatMap_map]
    rfl

/-- Settles O47: section `k` starts where the sections before it end. -/
theorem sectionPatternFrames : Obligations.SectionPatternFrames := by
  intro cfg c lit _ _ hlit
  have sections (k : Nat) (q : Int) : q ∈ cfg.sectionPositions k ↔
      (decide (((cfg.sections.take k).sum : Int) ≤ q) && decide (q < ((cfg.sections.take (k + 1)).sum : Int))) = true := by
    rw [Config.mem_sectionPositions, Bool.and_eq_true, decide_eq_true_iff, decide_eq_true_iff]
    rfl
  have steps : lit = fun k => stepFrames cfg (cfg.colour c) cfg.clearRender (cfg.sectionPositions k) :=
    funext fun k => by rw [hlit, stepFrames_eq (sections k)]
  refine ⟨?_, ?_, fun t ht => ?_⟩
  · rw [steps]; exact (sectionSteps_shows cfg _ _).frames
  · rw [steps]; exact (sectionSteps_shows cfg _ _).frames
  · have step (k : Nat) (hk : Instr.delay t ∈ cfg.sectionStep (cfg.colour c) k) : t = cfg.tSection := by
      rw [Config.sectionStep_eq_lightStep] at hk
      exact List.mem_singleton.1 (delay_mem_lightStep hk)
    rcases List.mem_append.1 ht with h | h <;> obtain ⟨k, -, hk⟩ := List.mem_flatMap.1 h <;> exact step k hk

/-- Settles O51: position `k` is the right one of step `k - B` or the left one of step `B - 1 - k`, and every step ends
dark. -/
theorem fillBounceLightsAndClears : Obligations.FillBounceLightsAndClears := by
  intro cfg c _ _ hK
  have plays := fillBounceOps_shows cfg (cfg.colour c)
  refine ⟨fun k low high => ?_, plays.fb.trans (paint_black cfg), ?_⟩
  · obtain ⟨i, hi, hk⟩ : ∃ i < cfg.pairSteps, (k : Int) ∈ cfg.pair i := by
      simp only [Config.pairSteps, Config.pair, List.mem_cons, List.not_mem_nil, or_false]
      by_cases h : cfg.b ≤ k
      · exact ⟨(k - cfg.b).toNat, by omega, by omega⟩
      · exact ⟨(cfg.b - 1 - k).toNat, by omega, by omega⟩
    refine ⟨litFrame cfg (cfg.colour c) fun q => decide (q ∈ cfg.pair i), ?_, by simp [litFrame_eq_map, high, hk]⟩
    rw [Config.expand, plays.frames]
    exact List.mem_flatMap.2 ⟨i, List.mem_range.2 hi, List.mem_cons_self⟩
  · have steps : cfg.pairSteps = cfg.pairSteps - 1 + 1 := by rw [Config.pairSteps]; omega
    rw [Config.expand, plays.frames, steps, List.range_succ, List.flatMap_append]
    simp [stepFrames]

end Sys2Proof.Machine

namespace Sys2Proof

/-! ## The hue wheel (R222) -/

/-- Settles O48: no channel of a ramp leaves [0, 255], so none wraps. -/
theorem wheelRamps : Obligations.WheelRamps := by
  intro k hk
  refine ⟨fun h1 => ?_, fun h1 h2 => ?_, fun h1 => ?_⟩
  · simp [wheel, h1]
    omega
  · have h1' : ¬ k < 85 := by omega
    simp [wheel, h1', h2]
    omega
  · have h1' : ¬ k < 85 := by omega
    have h2' : ¬ k < 170 := by omega
    simp [wheel, h1', h2']
    omega

/-- No hue is Black: in each ramp the channel that falls is still above 0 where the ramp ends. -/
theorem wheel_ne_black {k : Nat} (hk : k < 255) : wheel k ≠ Pixel.black := by
  obtain ⟨redGreen, greenBlue, blueRed⟩ := wheelRamps k (by omega)
  intro h
  rw [h] at redGreen greenBlue blueRed
  simp only [Pixel.black] at redGreen greenBlue blueRed
  omega

end Sys2Proof

namespace Sys2Proof.Machine

/-! ## The rainbow (R223, R224) -/

/-- The colours of step `j` (R223). -/
def hues (cfg : Config) (j : Nat) (q : Int) : Pixel := wheel (cfg.rainbowIndex q.toNat j)

/-- A step paints the whole strip, whatever it showed before. -/
theorem Shows.rainbowStep {cfg : Config} {w : Int → Pixel} {fs : List (List WireWord)} {v : Played}
    (h : Shows cfg w fs v) (j : Nat) :
    Shows cfg (hues cfg j) (fs ++ [paintFrame cfg (hues cfg j)]) (play cfg (cfg.rainbowStep j) v) := by
  have strip (k : Nat) (hk : k < cfg.n) : (k : Int) ∈ cfg.strip := List.mem_map_of_mem (List.mem_range.2 hk)
  have painted : Shows cfg (hues cfg j) fs (play cfg (Sys2Proof.setAll cfg.strip (hues cfg j)) v) :=
    (h.setAll cfg.strip (hues cfg j)).congr fun k hk => if_pos (strip k hk)
  rw [Config.rainbowStep_eq, play_append]
  exact painted.render.delays [cfg.tRainbow]

/-- Steps 0 to `m` one after another. -/
theorem Shows.rainbowSteps {cfg : Config} {w : Int → Pixel} {fs : List (List WireWord)} {v : Played}
    (h : Shows cfg w fs v) (m : Nat) :
    Shows cfg (hues cfg m) (fs ++ (List.range (m + 1)).map fun j => paintFrame cfg (hues cfg j))
      (play cfg ((List.range (m + 1)).flatMap cfg.rainbowStep) v) := by
  induction m with
  | zero => simpa using h.rainbowStep 0
  | succ m ih =>
    rw [List.range_succ, List.map_append, List.flatMap_append, List.flatMap_singleton, play_append, ← List.append_assoc]
    exact ih.rainbowStep (m + 1)

/-- Settles O49: 255 steps, each of which paints the whole strip. -/
theorem rainbowFrames : Obligations.RainbowFrames := by
  intro cfg fb es _ hwf
  obtain ⟨w, rfl⟩ := exists_paint hwf
  have start : Shows cfg w (framesIn es) ⟨paint cfg w, es⟩ := ⟨rfl, rfl⟩
  have plays := start.rainbowSteps 254
  refine ⟨plays.frames, plays.fb, fun black => ?_, fun t ht => ?_⟩
  · rw [Config.expand, Config.rainbowOps, plays.fb] at black
    obtain ⟨k, -, hk⟩ := List.mem_map.1 black
    exact wheel_ne_black (Nat.mod_lt _ (by decide)) hk
  · obtain ⟨j, -, hj⟩ := List.mem_flatMap.1 ht
    simpa [Config.rainbowStep] using hj

/-! ## DELAY and SEQ's move (R211, R212) -/

theorem execDelay_of_delayHold {t t0 d : Rat} {s : State} (h : delayHold t s = (t0, d)) :
    execDelay t s = .next (if t0 + d ≤ s.now then (s.holdFor .none).advance else s.holdFor (.delay t0 d)) := by
  rcases execDelay_cases t s with ⟨hle, e⟩ | ⟨hlt, e⟩
  · rw [h] at hle
    rw [e, if_pos hle]
  · rw [h] at hlt e
    rw [e, if_neg (not_le_of_gt hlt)]

/-- Settles O42: DELAY holds for what its own issue recorded, or, just reached, from now on. -/
theorem delayHoldsThenCompletes : Obligations.DelayHoldsThenCompletes := by
  intro t s
  have reached (h : s.seq.hold = .none) :=
    execDelay_of_delayHold (t := t) (show delayHold t s = (s.now, t) by rw [delayHold, h])
  have held (t0 : Rat) (h : s.seq.hold = .delay t0 t) :=
    execDelay_of_delayHold (t := t) (show delayHold t s = (t0, t) by rw [delayHold, h])
  refine ⟨fun h ht => (reached h).trans ?_, fun h ht => (reached h).trans ?_, fun t0 h before => (held t0 h).trans ?_,
    fun t0 h expired => (held t0 h).trans ?_⟩
  · rw [if_pos (by linarith), ← h]
    rfl
  · rw [if_neg (by linarith)]
    rfl
  · rw [if_neg (not_le_of_gt before), ← h]
    rfl
  · rw [if_pos expired]
    rfl

/-- Settles O20: `step` is its move, and SEQ's move is `exec` of what SEQ has come to. -/
theorem stepRunsTheInstruction : Obligations.StepRunsTheInstruction := by
  intro s ms hv
  have first (m : Move) (h : s.agenda = m :: ms) : step s = act m { s with agenda := ms } := by
    rw [step_of_valid s hv, s.nextMove_cons m ms h, s.popMove_cons m ms h]
  refine ⟨first, fun h i hr hi => ?_, fun h i hs hp hi => ?_⟩
  · rw [first .seq h]
    exact (seqStep_running { s with agenda := ms } hr).trans (runStep_some _ i hi)
  · rw [first .seq h]
    exact (seqStep_load { s with agenda := ms } hs hp).trans (loadStep_some _ i hi)

/-! ## Input while SEQ is busy (R213, R263) -/

/-- A byte that comes outside `AWAIT` adds at most the unit it completes to the trace, dropped. -/
theorem rxByte_busy_trace (b : Byte) {s : State} (h : s.seq.state ≠ .await) :
    ∃ us : List CmdUnit, (rxByte b s).trace = s.trace ++ us.map Event.dropped := by
  rcases rxByte_cases b s with ⟨u, rx', e⟩ | ⟨rx', e⟩
  · exact ⟨[u], by rw [e, State.deliver_busy s u h]; rfl⟩
  · exact ⟨[], by rw [e]; simp⟩

/-- Settles O13: no byte moves SEQ, so each finds it busy. -/
theorem busyInputIsDropped : Obligations.BusyInputIsDropped := by
  intro bs s t hs h
  induction bs generalizing s with
  | nil => cases h; exact ⟨rfl, rfl, rfl, rfl, rfl, rfl, [], by simp⟩
  | cons b bs ih =>
    obtain ⟨hcfg, hfb, htx, hnow⟩ := rxByte_frame b s
    obtain ⟨-, hseq, -⟩ := rxByte_busy b hs
    obtain ⟨us, htrace⟩ := rxByte_busy_trace b hs
    obtain ⟨seq, fb, tx, cfg, wire, now, us', trace⟩ := ih (rxByte b s) (by rwa [hseq]) h
    exact ⟨seq.trans hseq, fb.trans hfb, tx.trans htx, cfg.trans hcfg, wire.trans (rxByte_wire b s), now.trans hnow,
      us ++ us', by rw [trace, htrace, List.map_append, List.append_assoc]⟩

end Sys2Proof.Machine
end

section
/-! RX's byte step and SEQ's command states (spec/44_command.md): delivery, the pairing of bytes in `FIXED2` mode,
`VALIDATE`, the load of `DISPATCH`, and the way into and out of `AWAIT`. -/

namespace Sys2Proof

/-- VALIDATE accepts or rejects a well-shaped command by its colour alone (R268, R269). -/
theorem validate_of_colour (u : CmdUnit) {cmd : Cmd} {d c : Nat} (h : cmd = .fill c ∨ cmd = .directional d c) :
    validate u cmd = if c ≤ 9 then none else some (.outOfRangeIndex c) := by
  rcases h with rfl | rfl <;> rfl

end Sys2Proof

namespace Sys2Proof.Machine

/-! ## RX (R260 to R263) -/

/-- Settles O12: the two branches of `deliver`. -/
theorem deliveryAcceptsOrDrops : Obligations.DeliveryAcceptsOrDrops :=
  fun s u => ⟨s.deliver_await u, s.deliver_busy u⟩

theorem act_rx_line (b : Byte) {s : State} (hm : s.cfg.unitMode = .line) : act (.rx b) s = .next (rxLine b s) := by
  rw [act, rxByte_line b s hm]

theorem act_rx_fixed2 (b : Byte) {s : State} (hm : s.cfg.unitMode = .fixed2) :
    act (.rx b) s = .next (rxFixed2 b s) := by
  rw [act, rxByte_fixed2 b s hm]

/-- Settles O9: the three branches of RX's byte step. -/
theorem lineByteStep : Obligations.LineByteStep := by
  intro b s hm
  rw [act_rx_line b hm]
  rcases rxLine_cases b s with ⟨hlf, e⟩ | ⟨hlf, hlen, e⟩ | ⟨hlf, hlen, e⟩ <;> rw [e]
  · exact ⟨fun _ => rfl, fun h => absurd hlf h, fun h => absurd hlf h⟩
  · exact ⟨fun h => absurd h hlf, fun _ _ => rfl, fun _ h => absurd hlen h.not_gt⟩
  · exact ⟨fun h => absurd h hlf, fun _ h => absurd h hlen, fun _ _ => rfl⟩

/-- RX after one more byte in `FIXED2` mode: it holds a first byte, and a second one empties it (R262). -/
def Rx.pairByte (r : Rx) (b : Byte) : Rx :=
  if r.have_ then { r with have_ := false } else { r with hold := b, have_ := true }

theorem rxFixed2_rx (b : Byte) (s : State) : (rxFixed2 b s).rx = s.rx.pairByte b := by
  rw [Rx.pairByte]
  rcases rxFixed2_cases b s with ⟨hh, e⟩ | ⟨hh, e⟩ <;> rw [e, hh] <;> rfl

theorem Rx.pairByte_have (r : Rx) (b : Byte) : (r.pairByte b).have_ = !r.have_ := by
  rw [Rx.pairByte]
  cases r.have_ <;> rfl

theorem Rx.pairByte_hold {r : Rx} {b : Byte} (h : (r.pairByte b).have_ = true) : (r.pairByte b).hold = b := by
  have first : r.have_ = false := by simpa [Rx.pairByte_have] using h
  rw [Rx.pairByte, first]
  rfl

/-- RX holds a first byte exactly after an odd number of bytes. -/
theorem Rx.foldl_pairByte_have (bs : List Byte) (r : Rx) :
    (bs.foldl Rx.pairByte r).have_ = true ↔ (bs.length + if r.have_ then 1 else 0) % 2 = 1 := by
  induction bs generalizing r with
  | nil => cases h : r.have_ <;> simp [h]
  | cons b bs ih =>
    rw [List.foldl_cons, ih, Rx.pairByte_have, List.length_cons]
    cases r.have_ with
    | false => simp only [Bool.not_false, Bool.false_eq_true, if_true, if_false, Nat.add_zero]
    | true => simp only [Bool.not_true, Bool.false_eq_true, if_true, if_false]; omega

/-- The byte RX holds is the last one. -/
theorem Rx.foldl_pairByte_hold {bs : List Byte} {r : Rx} {b : Byte} (h : (bs.foldl Rx.pairByte r).have_ = true)
    (hb : bs.getLast? = some b) : (bs.foldl Rx.pairByte r).hold = b := by
  obtain ⟨bs, rfl⟩ := List.getLast?_eq_some_iff.1 hb
  rw [List.foldl_append] at h ⊢
  exact Rx.pairByte_hold h

/-- A move that is neither a byte nor a reset leaves RX. -/
theorem act_rx_kept {m : Move} {s t : State} (hm : m ≠ .reset) (hb : ∀ b, m ≠ .rx b) (h : act m s = .next t) :
    t.rx = s.rx := by
  cases m with
  | tick dt =>
    obtain ⟨-, -, -, hrx, -⟩ := passTime_frame h
    exact hrx
  | rx b => exact absurd rfl (hb b)
  | seq =>
    obtain ⟨-, hrx, -⟩ := (seqStep_seqSteps h).frame
    exact hrx
  | tx =>
    obtain ⟨-, -, -, hrx, -⟩ := txStep_frame h
    exact hrx
  | reset => exact absurd rfl hm

/-- One move other than a reset pairs the bytes it offers, one or none. -/
theorem act_pairs {m : Move} {s t : State} (hmode : s.cfg.unitMode = .fixed2) (hm : m ≠ .reset)
    (h : act m s = .next t) : t.rx = (offered [m]).foldl Rx.pairByte s.rx := by
  cases m with
  | rx b =>
    cases (act_rx_fixed2 b hmode).symm.trans h
    exact rxFixed2_rx b s
  | reset => exact absurd rfl hm
  | _ => exact act_rx_kept hm (fun _ => Move.noConfusion) h

theorem offered_cons (m : Move) (ms : List Move) : offered (m :: ms) = offered [m] ++ offered ms := by
  cases m <;> rfl

/-- In `FIXED2` mode RX is what the bytes offered since make of it, whatever SEQ and TX do (R262). -/
theorem runMoves_pairs {ms : List Move} {s t : State} (hmode : s.cfg.unitMode = .fixed2) (hr : Move.reset ∉ ms)
    (h : runMoves ms s = .next t) : t.rx = (offered ms).foldl Rx.pairByte s.rx := by
  induction ms generalizing s with
  | nil => cases h; rfl
  | cons m ms ih =>
    obtain ⟨hm, hms⟩ := List.ne_and_not_mem_of_not_mem_cons hr
    obtain ⟨u, hu, ht⟩ := (andThen_eq_next _ _ _).1 h
    rw [offered_cons, List.foldl_append, ← act_pairs hmode hm.symm hu]
    exact ih (by rwa [act_cfg hu]) hms ht

/-- Settles O11: RX is a fold over the bytes alone (`runMoves_pairs`), whose parity and last byte the list gives. -/
theorem fixed2BytesPairUp : Obligations.Fixed2BytesPairUp := by
  refine ⟨fun b s hmode => ?_, fun ms s t hmode hr h => ?_⟩
  · rw [act_rx_fixed2 b hmode]
    rcases rxFixed2_cases b s with ⟨hh, e⟩ | ⟨hh, e⟩ <;> rw [e, hh]
    · exact ⟨Bool.noConfusion, fun _ => rfl⟩
    · exact ⟨fun _ => rfl, Bool.noConfusion⟩
  · rw [runMoves_pairs hmode hr h]
    exact ⟨Rx.foldl_pairByte_have _ _, fun hh _ => Rx.foldl_pairByte_hold hh⟩

/-! ## SEQ's command states (R264 to R274) -/

/-- Settles O15: `Validate` on the shape of the command, then on its colour. -/
theorem validateStepRule : Obligations.ValidateStepRule := by
  intro s hs
  rw [act, seqStep_validate s hs]
  refine ⟨fun h => ?_, fun d c h hc => ?_, fun d c h hc => ⟨_, rfl, ?_⟩⟩
  · rw [validateStep_of_invalid h]
    rfl
  · rw [validateStep, validate_of_colour s.seq.cmdUnit h, if_neg hc.not_ge]
    rfl
  · rw [validateStep_of_accepted ((validate_of_colour s.seq.cmdUnit h).trans (if_pos hc))]
    exact ⟨rfl, rfl, rfl⟩

/-- Settles O17: each command plays a pattern of its colour, which the palette has. -/
theorem commandsLoadTheirPattern : Obligations.CommandsLoadTheirPattern := by
  intro d c s hpalette hc
  have coloured {p : Pattern} (hp : p.colour? = some c) : playPattern p s = .next (s.load (s.cfg.expand p)) :=
    playPattern_loads hpalette ((Pattern.wf_iff p).2 fun k hk => Option.some.inj (hp.symm.trans hk) ▸ hc)
  refine ⟨coloured (p := .fillBounce c) rfl, ?_, ?_, fun _ => rfl⟩
  · exact (execCmdDirA_eq c s).trans (coloured (by split <;> rfl))
  · exact (execCmdDirB_eq d c s).trans (coloured (by split <;> rfl))

/-- Settles O18: the direction decides between the two commands and nothing more. -/
theorem directionIsClamped : Obligations.DirectionIsClamped := by
  intro d c s
  refine ⟨rfl, fun hd => ?_, ?_, fun hc u => ?_⟩
  · rw [Cmd.instr?, if_neg (Nat.ne_of_gt hd)]
  · exact (execCmdDirB_eq d c s).trans (execCmdDirB_eq 1 c s).symm
  · exact (validate_of_colour u (.inr rfl)).trans (if_pos hc)

/-- The byte that changes SEQ in `AWAIT` completes a unit, which SEQ accepts (R260, R262, R263). -/
theorem rxByte_accepted {b : Byte} {s : State} (hs : s.seq.state = .await) (hne : (rxByte b s).seq ≠ s.seq) :
    ∃ u, (rxByte b s).seq = { s.seq with state := .parse, cmdUnit := u } ∧
      ((s.cfg.unitMode = .line ∧ b = lineFeed ∧ u = completeLine s.rx.buf s.rx.ovf) ∨
        (s.cfg.unitMode = .fixed2 ∧ s.rx.have_ = true ∧ u = .bytes [s.rx.hold, b])) := by
  cases hm : s.cfg.unitMode with
  | line =>
    rw [rxByte_line b s hm] at hne ⊢
    rcases rxLine_cases b s with ⟨hlf, e⟩ | ⟨-, -, e⟩ | ⟨-, -, e⟩ <;> rw [e] at hne ⊢
    · exact ⟨_, by rw [State.deliver_await s _ hs], .inl ⟨rfl, hlf, rfl⟩⟩
    · exact absurd rfl hne
    · exact absurd rfl hne
  | fixed2 =>
    rw [rxByte_fixed2 b s hm] at hne ⊢
    rcases rxFixed2_cases b s with ⟨hh, e⟩ | ⟨-, e⟩ <;> rw [e] at hne ⊢
    · exact ⟨_, by rw [State.deliver_await s _ hs], .inr ⟨rfl, hh, rfl⟩⟩
    · exact absurd rfl hne

/-- In `AWAIT` only a byte or a reset changes SEQ (R264, R314). -/
theorem act_seq_await {m : Move} {s t : State} (hs : s.seq.state = .await) (hm : m ≠ .reset) (hb : ∀ b, m ≠ .rx b)
    (h : act m s = .next t) : t.seq = s.seq := by
  cases m with
  | tick dt =>
    obtain ⟨-, -, hseq, -⟩ := passTime_frame h
    exact hseq
  | rx b => exact absurd rfl (hb b)
  | seq => cases (seqStep_await s hs).symm.trans h; rfl
  | tx =>
    obtain ⟨-, -, hseq, -⟩ := txStep_frame h
    exact hseq
  | reset => exact absurd rfl hm

/-- Settles O22: a program with no micro-operation at `pc` goes to `AWAIT`; only a unit or a reset leads on. -/
theorem completedProgramAwaits : Obligations.CompletedProgramAwaits := by
  refine ⟨fun s running hpc => ?_, seqStep_await, fun m s t hs h hne => ?_⟩
  · exact (seqStep_running s running).trans (runStep_none s (List.getElem?_eq_none hpc.ge))
  · cases m with
    | rx b =>
      cases h
      obtain ⟨u, hseq, unit⟩ := rxByte_accepted hs hne
      refine .inr ⟨b, rfl, ?_⟩
      rw [hseq]
      exact ⟨rfl, unit⟩
    | reset => exact .inl rfl
    | _ => exact absurd (act_seq_await hs Move.noConfusion (fun _ => Move.noConfusion) h) hne

end Sys2Proof.Machine
end

section
/-! PROOFS for spec/70_reset_and_hazards.md (R340, R355, R356): the state reset leaves; the work left before quiescence,
which no move without a byte or a reset adds to; fair runs and shortest runs to quiescence. -/

namespace Sys2Proof.Machine

/-! ## Reset (R340) -/

/-- Settles O1: every field of both states is the table's by definition; the framebuffer is `N` times Black. -/
theorem resetLeavesTheTable : Obligations.ResetLeavesTheTable := by
  intro s t h
  have black (k : Nat) (hk : k < s.cfg.n) : (List.replicate s.cfg.n Pixel.black)[k]? = some ⟨0, 0, 0⟩ :=
    List.getElem?_replicate_of_lt hk
  rcases h with rfl | h
  case' inr => cases h
  all_goals exact ⟨rfl, List.length_replicate, black, rfl, rfl, rfl, rfl, rfl, rfl, rfl, rfl, rfl, rfl, rfl⟩

/-! ## The passing of time alone (R185, R211) -/

/-- TX when `dt` seconds have passed and nothing else has happened. -/
def Tx.after (x : Tx) (dt : Rat) : Tx :=
  match x.state with
  | .idle => x
  | .latch => { x with lowTime := x.lowTime + dt }
  | .shift => { x with phaseTime := x.phaseTime + dt }

theorem Tx.after_idle {x : Tx} (h : x.state = .idle) (dt : Rat) : x.after dt = x := by
  simp [Tx.after, h]

theorem Tx.after_latch {x : Tx} (h : x.state = .latch) (dt : Rat) :
    x.after dt = { x with lowTime := x.lowTime + dt } := by
  simp [Tx.after, h]

theorem Tx.after_shift {x : Tx} (h : x.state = .shift) (dt : Rat) :
    x.after dt = { x with phaseTime := x.phaseTime + dt } := by
  simp [Tx.after, h]

theorem elapse_tx (s : State) (dt : Rat) : (s.elapse dt).tx = s.tx.after dt := by
  cases hs : s.tx.state with
  | idle => rw [State.elapse_idle hs, Tx.after_idle hs]
  | latch => rw [State.elapse_latch hs, Tx.after_latch hs]
  | shift => rw [State.elapse_shift hs, Tx.after_shift hs]

theorem Tx.after_zero (x : Tx) : x.after 0 = x := by
  cases h : x.state with
  | idle => rw [Tx.after_idle h]
  | latch => rw [Tx.after_latch h, add_zero]
  | shift => rw [Tx.after_shift h, add_zero]

theorem Tx.after_after (x : Tx) (d e : Rat) : (x.after d).after e = x.after (d + e) := by
  cases h : x.state with
  | idle => simp [Tx.after, h]
  | latch => simp [Tx.after, h, add_assoc]
  | shift => simp [Tx.after, h, add_assoc]

/-- From `s` to `t` nothing happened to SEQ and TX but that time passed. -/
structure OnlyTime (s t : State) : Prop where
  cfg : t.cfg = s.cfg
  seq : t.seq = s.seq
  now : s.now ≤ t.now
  tx : t.tx = s.tx.after (t.now - s.now)

namespace OnlyTime

theorem of_same {s t : State} (hcfg : t.cfg = s.cfg) (hseq : t.seq = s.seq) (hnow : t.now = s.now)
    (htx : t.tx = s.tx) : OnlyTime s t :=
  ⟨hcfg, hseq, hnow.ge, by rw [htx, hnow, sub_self, Tx.after_zero]⟩

theorem refl (s : State) : OnlyTime s s := of_same rfl rfl rfl rfl

theorem trans {s t u : State} (h : OnlyTime s t) (h' : OnlyTime t u) : OnlyTime s u where
  cfg := h'.cfg.trans h.cfg
  seq := h'.seq.trans h.seq
  now := h.now.trans h'.now
  tx := by rw [h'.tx, h.tx, Tx.after_after, sub_add_sub_comm, add_comm t.now, add_sub_add_right_eq_sub]

theorem elapse (s : State) {dt : Rat} (hdt : 0 ≤ dt) : OnlyTime s (s.elapse dt) where
  cfg := s.elapse_cfg dt
  seq := s.elapse_seq dt
  now := by simpa using hdt
  tx := by rw [elapse_tx, s.elapse_now, add_sub_cancel_left]

end OnlyTime

theorem passTime_onlyTime {dt : Rat} {s t : State} (h : passTime dt s = .next t) : OnlyTime s t := by
  rcases passTime_cases dt s with e | ⟨hdt, -, e⟩ | ⟨_, hdt, -, -, -, e⟩ | ⟨-, -, e⟩ <;> cases e.symm.trans h
  · exact .refl s
  · exact .elapse s hdt
  · exact .elapse s hdt

/-! ## The work left before quiescence -/

/-- How far SEQ's state is from `AWAIT` (R264 to R274, R345). -/
def Seq.stage (q : Seq) : Nat :=
  match q.state with
  | .await => 0
  | .boot => 1
  | .dispatch => if q.loadPending then 2 else 1
  | .validate => 3
  | .parse => 4

/-- The micro-operations from `pc` on. -/
def Seq.opsLeft (q : Seq) : Nat := q.prog.length - q.pc

/-- 1 where the micro-operation at `pc` may still come to a hold. -/
def Seq.holdsLeft (q : Seq) : Nat := if q.hold = .none then 1 else 0

/-- TX's steps to `IDLE`: the phases left of a frame of `n` words, and the latch gap. -/
def Tx.stepsLeft (n : Nat) (x : Tx) : Nat :=
  match x.state with
  | .idle => 0
  | .latch => 1
  | .shift => 2 + (48 * n - x.phasesDone)

/-- The work left, the weightiest part first: a load brings new micro-operations, a completed one may hold again at the next,
and a hand-over gives TX a new frame. -/
def State.work (s : State) : ℕ ×ₗ ℕ ×ₗ ℕ ×ₗ ℕ :=
  toLex (s.seq.stage, toLex (s.seq.opsLeft, toLex (s.seq.holdsLeft, s.tx.stepsLeft s.cfg.n)))

theorem work_lt_of_stage {s t : State} (h : t.seq.stage < s.seq.stage) : t.work < s.work :=
  Prod.Lex.toLex_lt_toLex.2 (.inl h)

theorem work_lt_of_opsLeft {s t : State} (hstage : t.seq.stage = s.seq.stage) (h : t.seq.opsLeft < s.seq.opsLeft) :
    t.work < s.work :=
  Prod.Lex.toLex_lt_toLex.2 (.inr ⟨hstage, Prod.Lex.toLex_lt_toLex.2 (.inl h)⟩)

theorem work_lt_of_hold {s t : State} {h : SeqHold} (hseq : t.seq = { s.seq with hold := h }) (free : s.seq.hold = .none)
    (held : h ≠ .none) : t.work < s.work := by
  have fewer : t.seq.holdsLeft < s.seq.holdsLeft := by simp [Seq.holdsLeft, hseq, free, held]
  refine Prod.Lex.toLex_lt_toLex.2 (.inr ⟨?_, Prod.Lex.toLex_lt_toLex.2 (.inr ⟨?_,
    Prod.Lex.toLex_lt_toLex.2 (.inl fewer)⟩)⟩) <;> rw [hseq] <;> rfl

theorem work_lt_of_tx {s t : State} (hseq : t.seq = s.seq) (h : t.tx.stepsLeft t.cfg.n < s.tx.stepsLeft s.cfg.n) :
    t.work < s.work := by
  rw [State.work, hseq]
  exact Prod.Lex.toLex_lt_toLex.2 (.inr ⟨rfl, Prod.Lex.toLex_lt_toLex.2 (.inr ⟨rfl,
    Prod.Lex.toLex_lt_toLex.2 (.inr ⟨rfl, h⟩)⟩)⟩)

theorem Tx.stepsLeft_after (n : Nat) (x : Tx) (dt : Rat) : (x.after dt).stepsLeft n = x.stepsLeft n := by
  unfold Tx.after
  split <;> rfl

/-- Time does none of the work. -/
theorem OnlyTime.work_eq {s t : State} (h : OnlyTime s t) : t.work = s.work := by
  rw [State.work, h.cfg, h.seq, h.tx, Tx.stepsLeft_after, State.work]

/-! ## A step that an agent can take does some of the work (R355) -/

theorem stage_of_running {s : State} (h : s.running = true) : s.seq.stage = 1 := by
  rcases (running_iff s).1 h with hs | ⟨hs, hp⟩
  · simp [Seq.stage, hs]
  · simp [Seq.stage, hs, hp]

/-- A micro-operation that has completed is one less to run. -/
theorem work_lt_of_advance {s t : State} {i : Instr} (hi : s.seq.prog[s.seq.pc]? = some i)
    (hstage : t.seq.stage = s.seq.stage) (hprog : t.seq.prog = s.seq.prog) (hpc : t.seq.pc = s.seq.pc + 1) :
    t.work < s.work := by
  have inside : s.seq.pc < s.seq.prog.length := (List.getElem?_eq_some_iff.1 hi).1
  refine work_lt_of_opsLeft hstage ?_
  rw [Seq.opsLeft, Seq.opsLeft, hprog, hpc]
  omega

/-- A RENDER that is to wait for TX though no hold keeps SEQ has not held yet. -/
theorem HoldOk.none_of_render_waits {s : State} (h : HoldOk s) (lifted : s.holdLifted = true)
    (hi : s.seq.prog[s.seq.pc]? = some .render) (busy : s.tx.state ≠ .idle) : s.seq.hold = .none := by
  rcases h.cases with hn | ⟨hb, -, -⟩ | ⟨t0, d, -, -, hd, -⟩
  · exact hn
  · simp [State.holdLifted, hb, State.txBusy, busy] at lifted
  · cases hi.symm.trans hd

/-- A DELAY that is to wait though no hold keeps SEQ has not held yet. -/
theorem HoldOk.none_of_delay_waits {s : State} {d : Rat} (h : HoldOk s) (lifted : s.holdLifted = true)
    (hi : s.seq.prog[s.seq.pc]? = some (.delay d))
    (waits : s.now < (Machine.delayHold d s).1 + (Machine.delayHold d s).2) : s.seq.hold = .none := by
  rcases h.cases with hn | ⟨-, -, hr⟩ | ⟨t0, d', hd, -⟩
  · exact hn
  · cases hi.symm.trans hr
  · have expired : t0 + d' ≤ s.now := by simpa [State.holdLifted, hd] using lifted
    rw [show Machine.delayHold d s = (t0, d') by simp [Machine.delayHold, hd]] at waits
    exact absurd expired waits.not_ge

/-- The micro-operation at `pc` completes, or comes to its hold. -/
theorem Executes.work_lt {s t : State} {i : Instr} (h : Executes s i t) (prog : i.inProgram = true)
    (hi : s.seq.prog[s.seq.pc]? = some i) (hold : HoldOk s) (lifted : s.holdLifted = true) : t.work < s.work := by
  cases h with
  | renderHeld busy => exact work_lt_of_hold rfl (hold.none_of_render_waits lifted hi busy) (by simp)
  | delayHeld d waits => exact work_lt_of_hold rfl (hold.none_of_delay_waits lifted hi waits) (by simp)
  | load _ _ hn _ => simp [Instr.isMicro_of_inProgram prog] at hn
  | transmitHeld fr => cases prog
  | _ => exact work_lt_of_advance hi rfl rfl rfl

theorem SeqSteps.work_lt {s t : State} (h : SeqSteps s t) (inv : SeqInv s) (enabled : s.seqEnabled = true) :
    t.work < s.work := by
  cases h with
  | executes i running hi hx =>
    obtain ⟨-, lifted⟩ : s.seqBusy = true ∧ s.holdLifted = true := by simpa [State.seqEnabled, running] using enabled
    exact hx.work_lt (inv.prog i (List.mem_of_getElem? hi)) hi inv.hold lifted
  | completes running => exact work_lt_of_stage (by rw [stage_of_running running]; exact Nat.one_pos)
  | waits hs => simp [State.seqEnabled, State.seqBusy, hs] at enabled
  | parses hs => exact work_lt_of_stage (by simp [Seq.stage, parseStep, hs])
  | rejects r hs => exact work_lt_of_stage (by simp [Seq.stage, hs])
  | accepts hs => exact work_lt_of_stage (by simp [Seq.stage, hs])
  | loads i p hs hp => exact work_lt_of_stage (by simp [Seq.stage, hs, hp])

/-- In `SHIFT` there is a phase of the frame left. -/
theorem TxInv.phasesDone_lt {s : State} (h : TxInv s) : s.tx.phasesDone < 48 * s.cfg.n := by
  have := h.pix
  have := h.bit
  unfold Tx.phasesDone
  split <;> omega

/-- The end of a phase leaves one less, or only the latch gap. -/
theorem Tx.endPhase_stepsLeft {n : Nat} {x : Tx} (hs : x.state = .shift) (hb : x.bit < 24)
    (left : x.phasesDone < 48 * n) : (x.endPhase n).stepsLeft n < x.stepsLeft n := by
  obtain ⟨-, ⟨hs', hdone⟩ | ⟨hs', -⟩⟩ := Tx.endPhase_phasesDone (n := n) hs hb
  · simp only [Tx.stepsLeft, hs, hs', hdone]
    omega
  · simp only [Tx.stepsLeft, hs, hs']
    omega

theorem txStep_work_lt {s t : State} (inv : TxInv s) (enabled : s.txEnabled = true) (h : txStep s = .next t) :
    t.work < s.work := by
  unfold State.txEnabled at enabled
  rcases txStep_cases s with ⟨hs, -⟩ | ⟨hs, -, e⟩ | ⟨hs, early, -⟩ | ⟨-, -, e⟩ | ⟨x, hs, -, -, e⟩ | ⟨x, hs, hx, late, -⟩
  · simp [hs] at enabled
  · cases e.symm.trans h
    exact work_lt_of_tx rfl (by simp [Tx.stepsLeft, hs])
  · simp [hs, early] at enabled
  · cases e.symm.trans h
  · cases e.symm.trans h
    exact work_lt_of_tx rfl (Tx.endPhase_stepsLeft hs inv.bit inv.phasesDone_lt)
  · simp [hs, hx, late] at enabled

/-- The move is the step of an agent that can take one (R355). -/
def State.enabled (s : State) : Move → Bool
  | .seq => s.seqEnabled
  | .tx => s.txEnabled
  | .tick _ => false
  | .rx _ => false
  | .reset => false

theorem agent_of_enabled {s : State} {m : Move} (h : s.enabled m = true) : m = .seq ∨ m = .tx := by
  cases m with
  | seq => exact .inl rfl
  | tx => exact .inr rfl
  | _ => cases h

theorem act_work_lt {m : Move} {s t : State} (inv : Inv s) (enabled : s.enabled m = true) (h : act m s = .next t) :
    t.work < s.work := by
  cases m with
  | seq => exact (seqStep_seqSteps h).work_lt inv.seq enabled
  | tx => exact txStep_work_lt inv.tx enabled h
  | _ => cases enabled

/-- A move without a byte and without a reset that is not the step of an agent able to take it lets time pass at most. -/
theorem act_onlyTime {m : Move} {s t : State} (inv : Inv s) (hb : ∀ b, m ≠ .rx b) (hr : m ≠ .reset)
    (disabled : s.enabled m = false) (h : act m s = .next t) : OnlyTime s t := by
  cases m with
  | tick dt => exact passTime_onlyTime h
  | rx b => exact absurd rfl (hb b)
  | seq =>
    cases (seqStep_not_enabled s inv.seq.hold disabled).symm.trans h
    exact .refl s
  | tx =>
    rcases txStep_not_enabled s disabled with e | ⟨p, e⟩ <;> cases e.symm.trans h
    exact .refl s
  | reset => exact absurd rfl hr

/-! ## Short of quiescence an agent is able to step, in time (R355) -/

theorem shortest_le_longest {cfg : Config} (hv : cfg.valid = true) (x : Bool) (ph : TxPhase) :
    shortest cfg x ph ≤ longest cfg x ph := by
  obtain ⟨-, -, -, -, -, hj, -⟩ := cfg.wireValid_iff.1 (cfg.valid_iff.1 hv).2.1
  have nominal_nonneg : 0 ≤ nominal cfg x ph := nonneg_of_mul_nonneg_left (longest_nonneg hv x ph) (by linarith)
  exact mul_le_mul_of_nonneg_left (by linarith) nominal_nonneg

/-- After `dt` seconds, which may pass at once, agent `m` is able to step in `s` and stays so as long as only time passes. -/
structure Ready (s : State) (dt : Rat) (m : Move) : Prop where
  nonneg : 0 ≤ dt
  passes : passTime dt s = .next (s.elapse dt)
  enabled : ∀ t, Inv t → OnlyTime s t → s.now + dt ≤ t.now → t.enabled m = true

theorem ready_tx_of_shift {s : State} (inv : Inv s) (hs : s.tx.state = .shift) : ∃ dt, Ready s dt .tx := by
  obtain ⟨x, hx⟩ := inv.tx.currentBit?_eq_some
  obtain ⟨-, fits⟩ := inv.tx.phaseTime hs
  have room : s.tx.phaseTime + max 0 (shortest s.cfg x s.tx.phase - s.tx.phaseTime) ≤ longest s.cfg x s.tx.phase := by
    rw [← max_add_add_left]
    exact max_le (by simpa using fits x hx) (by simpa using shortest_le_longest inv.cfg x s.tx.phase)
  refine ⟨max 0 (shortest s.cfg x s.tx.phase - s.tx.phaseTime), le_max_left _ _, ?_, fun t ht only late => ?_⟩
  · rw [passTime_shift hs hx, if_pos ⟨le_max_left _ _, room⟩]
  · have tx := only.tx
    rw [Tx.after_shift hs] at tx
    have hs' : t.tx.state = .shift := by rw [tx]; exact hs
    have hx' : t.tx.currentBit? = some x := by rw [tx]; exact hx
    obtain ⟨-, fits'⟩ := ht.tx.phaseTime hs'
    have long : shortest t.cfg x t.tx.phase ≤ t.tx.phaseTime := by
      rw [tx, only.cfg]
      dsimp only
      linarith [le_max_right 0 (shortest s.cfg x s.tx.phase - s.tx.phaseTime)]
    have ends := (phaseMayEnd_iff t.cfg x t.tx).2 ⟨long, fits' x hx'⟩
    simpa [State.enabled, State.txEnabled, hs', hx'] using ends

theorem ready_tx_of_latch {s : State} (hs : s.tx.state = .latch) : ∃ dt, Ready s dt .tx := by
  refine ⟨max 0 (s.cfg.tLatch - s.tx.lowTime), le_max_left _ _, ?_, fun t _ only late => ?_⟩
  · rw [passTime_rest (by simp [hs]), if_pos (le_max_left _ _)]
  · have tx := only.tx
    rw [Tx.after_latch hs] at tx
    have hs' : t.tx.state = .latch := by rw [tx]; exact hs
    have complete : t.cfg.tLatch ≤ t.tx.lowTime := by
      rw [tx, only.cfg]
      dsimp only
      linarith [le_max_right 0 (s.cfg.tLatch - s.tx.lowTime)]
    simpa [State.enabled, State.txEnabled, hs'] using complete

theorem seqEnabled_of_holdLifted {s : State} (hs : s.seq.state ≠ .await) (lifted : s.holdLifted = true) :
    s.seqEnabled = true := by
  simp [State.seqEnabled, State.seqBusy, hs, lifted]

/-- With TX in `IDLE` what SEQ's hold waits for is time at most (R40). -/
theorem ready_seq_of_idle {s : State} (hs : s.seq.state ≠ .await) (idle : s.tx.state = .idle) :
    ∃ dt, Ready s dt .seq := by
  have passes {dt : Rat} (hdt : 0 ≤ dt) : passTime dt s = .next (s.elapse dt) := by
    rw [passTime_rest (by simp [idle]), if_pos hdt]
  have enabled {t : State} (only : OnlyTime s t) (lifted : t.holdLifted = true) : t.enabled .seq = true :=
    seqEnabled_of_holdLifted (by rwa [only.seq]) lifted
  cases hh : s.seq.hold with
  | none => exact ⟨0, le_rfl, passes le_rfl, fun t _ only _ => enabled only (by simp [State.holdLifted, only.seq, hh])⟩
  | txBusy =>
    refine ⟨0, le_rfl, passes le_rfl, fun t _ only _ => enabled only ?_⟩
    simp [State.holdLifted, only.seq, hh, State.txBusy, only.tx, Tx.after_idle idle, idle]
  | delay t0 d =>
    refine ⟨max 0 (t0 + d - s.now), le_max_left _ _, passes (le_max_left _ _), fun t _ only late => enabled only ?_⟩
    have expired : t0 + d ≤ t.now := by linarith [le_max_right 0 (t0 + d - s.now)]
    simpa [State.holdLifted, only.seq, hh] using expired

/-- In every state of the invariant that is not quiescent TX or SEQ is able to step, now or after some time. -/
theorem exists_ready {s : State} (inv : Inv s) (h : ¬ Quiescent s) : ∃ dt m, Ready s dt m := by
  cases hs : s.tx.state with
  | shift => exact (ready_tx_of_shift inv hs).imp fun _ ready => ⟨.tx, ready⟩
  | latch => exact (ready_tx_of_latch hs).imp fun _ ready => ⟨.tx, ready⟩
  | idle => exact (ready_seq_of_idle (fun await => h ⟨await, hs⟩) hs).imp fun _ ready => ⟨.seq, ready⟩

/-! ## Fair runs reach quiescence (R355) -/

namespace SameButAgenda
variable {s u : State}

theorem onlyTime (h : SameButAgenda s u) : OnlyTime s u := by
  rw [h]
  exact .of_same rfl rfl rfl rfl

theorem inv (h : SameButAgenda s u) (hs : Inv s) : Inv u := by
  rw [h]
  exact hs.of_tx rfl rfl rfl rfl rfl le_rfl (hs.tx.congr rfl rfl)

theorem enabled_eq (h : SameButAgenda s u) (m : Move) : u.enabled m = s.enabled m := by
  rw [h]
  cases m <;> rfl

end SameButAgenda

/-- An agent that stays able to step steps in the end. -/
theorem FairRun.agent {m : Nat → Move} {r : Nat → State} (fair : FairRun m r) (a : Move) (k : Nat) :
    ∃ j, k ≤ j ∧ (m j = a ∨ (r j).enabled a = false) := by
  cases a with
  | seq => exact fair.seq k
  | tx => exact fair.tx k
  | _ => exact ⟨k, le_rfl, .inr rfl⟩

theorem FairRun.now_mono {m : Nat → Move} {r : Nat → State} (fair : FairRun m r) : Monotone fun k => (r k).now :=
  monotone_nat_of_le_succ fun k => by
    obtain ⟨u, same, h⟩ := fair.run k
    exact same.onlyTime.now.trans (act_now_le h)

section
variable {m : Nat → Move} {r : Nat → State} (start : Inv (r 0)) (fair : FairRun m r) (noByte : ∀ k b, m k ≠ .rx b)
  (noReset : ∀ k, m k ≠ .reset)
include start fair

theorem FairRun.inv (k : Nat) : Inv (r k) := by
  induction k with
  | zero => exact start
  | succ k ih =>
    obtain ⟨u, same, h⟩ := fair.run k
    exact act_inv (same.inv ih) h

include noByte noReset

/-- Each move of the run does some of the work, or lets time pass and is no step an agent was able to take. -/
theorem FairRun.work_lt_or_onlyTime (k : Nat) :
    (r (k + 1)).work < (r k).work ∨ (OnlyTime (r k) (r (k + 1)) ∧ (r k).enabled (m k) = false) := by
  obtain ⟨u, same, h⟩ := fair.run k
  have inv : Inv u := same.inv (fair.inv start k)
  cases enabled : u.enabled (m k) with
  | true => exact .inl (same.onlyTime.work_eq ▸ act_work_lt inv enabled h)
  | false =>
    exact .inr ⟨same.onlyTime.trans (act_onlyTime inv (noByte k) (noReset k) enabled h), same.enabled_eq _ ▸ enabled⟩

/-- Short of quiescence some of the work is done in the end: else only time would pass for ever, and the agent that becomes
able to step by it would never step. -/
theorem FairRun.exists_work_lt {k : Nat} (busy : ¬ Quiescent (r k)) : ∃ j, (r j).work < (r k).work := by
  by_contra! stuck
  have idles (j : Nat) (only : OnlyTime (r k) (r j)) : OnlyTime (r j) (r (j + 1)) ∧ (r j).enabled (m j) = false :=
    (fair.work_lt_or_onlyTime start noByte noReset j).resolve_left fun less =>
      (stuck (j + 1)).not_gt (only.work_eq ▸ less)
  have waits (j : Nat) (hj : k ≤ j) : OnlyTime (r k) (r j) := by
    induction j, hj using Nat.le_induction with
    | base => exact .refl _
    | succ j _ only => exact only.trans (idles j only).1
  obtain ⟨dt, a, ready⟩ := exists_ready (fair.inv start k) busy
  obtain ⟨i, late⟩ := fair.time ((r k).now + dt)
  obtain ⟨j, hj, turn⟩ := fair.agent a (max k i)
  have hkj : k ≤ j := (le_max_left k i).trans hj
  have enough : (r k).now + dt ≤ (r j).now := late.trans (fair.now_mono ((le_max_right k i).trans hj))
  have enabled : (r j).enabled a = true := ready.enabled _ (fair.inv start j) (waits j hkj) enough
  have moves : m j = a := turn.resolve_right (by simp [enabled])
  obtain ⟨-, disabled⟩ := idles j (waits j hkj)
  cases enabled.symm.trans (moves ▸ disabled)

/-- No fair run goes on without end short of quiescence: the work left is well-founded. -/
theorem FairRun.exists_quiescent : ∃ k, Quiescent (r k) := by
  by_contra! busy
  obtain ⟨_, ⟨k, rfl⟩, least⟩ := wellFounded_lt.has_min (Set.range fun k => (r k).work) ⟨_, 0, rfl⟩
  obtain ⟨j, less⟩ := fair.exists_work_lt start noByte noReset (busy k)
  exact least _ ⟨j, rfl⟩ less

end

/-! ## Some moves lead to quiescence (R355) -/

/-- Time and one agent's step do some of the work, without a byte and without a reset. -/
theorem exists_moves_work_lt {s : State} (inv : Inv s) (busy : ¬ Quiescent s) : ∃ dt m t, Move.reset ∉ [Move.tick dt, m] ∧
    offered [Move.tick dt, m] = [] ∧ runMoves [.tick dt, m] s = .next t ∧ Inv t ∧ t.work < s.work := by
  obtain ⟨dt, m, ready⟩ := exists_ready inv busy
  have only : OnlyTime s (s.elapse dt) := .elapse s ready.nonneg
  have inv' : Inv (s.elapse dt) := act_inv (m := .tick dt) inv ready.passes
  have enabled : (s.elapse dt).enabled m = true := ready.enabled _ inv' only (s.elapse_now dt).ge
  obtain ⟨t, h⟩ := act_defined m inv'
  have run : runMoves [.tick dt, m] s = .next t := by
    rw [runMoves_cons, act, ready.passes, andThen_next, runMoves_singleton, h]
  have less : t.work < s.work := only.work_eq ▸ act_work_lt inv' enabled h
  rcases agent_of_enabled enabled with rfl | rfl <;>
    exact ⟨dt, _, t, by simp, rfl, run, act_inv inv' h, less⟩

theorem offered_append (ms ms' : List Move) : offered (ms ++ ms') = offered ms ++ offered ms' := by
  induction ms with
  | nil => rfl
  | cons m ms ih => rw [List.cons_append, offered_cons, ih, offered_cons m ms, List.append_assoc]

theorem exists_moves_quiescent (s : State) (inv : Inv s) :
    ∃ ms t, Move.reset ∉ ms ∧ offered ms = [] ∧ runMoves ms s = .next t ∧ Quiescent t := by
  induction hw : s.work using WellFoundedLT.induction generalizing s with
  | ind w ih =>
    by_cases done : Quiescent s
    · exact ⟨[], s, List.not_mem_nil, rfl, rfl, done⟩
    obtain ⟨dt, m, u, noReset, noByte, hu, inv', less⟩ := exists_moves_work_lt inv done
    obtain ⟨ms, t, noReset', noByte', ht, quiet⟩ := ih u.work (hw ▸ less) u inv' rfl
    refine ⟨[.tick dt, m] ++ ms, t, ?_, ?_, ?_, quiet⟩
    · exact fun h => (List.mem_append.1 h).elim noReset noReset'
    · rw [offered_append, noByte, noByte', List.append_nil]
    · rw [runMoves_append, hu, andThen_next, ht]

/-- Settles O59: a fair run keeps doing some of the work left, which is well-founded, and so do moves chosen for it. -/
theorem quiescenceCanBeReached : Obligations.QuiescenceCanBeReached :=
  ⟨fun _ _ start fair noByte noReset => fair.exists_quiescent start noByte noReset, exists_moves_quiescent⟩

/-! ## Observations (R356) -/

theorem offered_map_rx (bs : List Byte) : offered (bs.map Move.rx) = bs := by
  induction bs with
  | nil => rfl
  | cons b bs ih => rw [List.map_cons, offered, ih]

theorem runMoves_defined (ms : List Move) {s : State} (inv : Inv s) : ∃ t, runMoves ms s = .next t ∧ Inv t := by
  induction ms generalizing s with
  | nil => exact ⟨s, rfl, inv⟩
  | cons m ms ih =>
    obtain ⟨u, hu⟩ := act_defined m inv
    rw [runMoves_cons, hu]
    exact ih (act_inv inv hu)

/-- The moves, none a reset, offer the bytes and lead from reset to quiescence. -/
def Settling (cfg : Config) (bytes : List Byte) (ms : List Move) : Prop :=
  Move.reset ∉ ms ∧ offered ms = bytes ∧ ∃ t, runMoves ms (State.resetWith cfg) = .next t ∧ Quiescent t

/-- The bytes may all come at once after reset, and quiescence can be reached from there. -/
theorem exists_settling {cfg : Config} (hv : cfg.valid = true) (bytes : List Byte) : ∃ ms, Settling cfg bytes ms := by
  obtain ⟨u, hu, inv⟩ := runMoves_defined (bytes.map Move.rx) (resetMeetsTheInvariant cfg hv)
  obtain ⟨ms, t, noReset, noByte, ht, quiet⟩ := exists_moves_quiescent u inv
  refine ⟨bytes.map Move.rx ++ ms, ?_, ?_, t, ?_, quiet⟩
  · simp [noReset]
  · rw [offered_append, offered_map_rx, noByte, List.append_nil]
  · rw [runMoves_append, hu, andThen_next, ht]

/-- Settles O60: a shortest run that takes the bytes and reaches quiescence reaches none before. -/
theorem everyInputHasAnObservation : Obligations.EveryInputHasAnObservation := by
  intro cfg bytes hv
  obtain ⟨ms, ⟨noReset, taken, t, ht, quiet⟩, shortest⟩ :=
    (measure List.length).wf.has_min {ms | Settling cfg bytes ms} (exists_settling hv bytes)
  refine ⟨t.trace, ms, t, noReset, taken, ht, quiet, rfl, fun pre post u split more taken' hu quiet' => ?_⟩
  have settling : Settling cfg bytes pre :=
    ⟨fun h => noReset (split ▸ List.mem_append_left post h), taken', u, hu, quiet'⟩
  have shorter : pre.length < ms.length := by
    rw [split, List.length_append]
    exact Nat.lt_add_of_pos_right (List.length_pos_iff.2 more)
  exact shortest pre settling shorter

end Sys2Proof.Machine
end
